-- ==== Sys2Proof/Word.lean ====
section
/-! DEFINITION. The value types of 00_scope.md R10 and R11: bytes, byte sequences, unsigned and signed 16-bit words. -/

namespace Sys2Proof

/-- `u8`: a byte, an unsigned integer 0 to 255 (R10, R11). -/
abbrev Byte := BitVec 8

/-- A byte sequence `[a, b, ...]`, index 0 first (R10). -/
abbrev Bytes := List Byte

/-- `u16`: an unsigned 16-bit integer (R11). -/
abbrev U16 := BitVec 16

/-- `s16`: a signed 16-bit two's-complement integer, read with `BitVec.toInt` (R11). -/
abbrev S16 := BitVec 16

end Sys2Proof
end

