-- ==== Sys2Proof/Syntax.lean ====
section
/-! DEFINITION. The closed operation set of 30_encoding.md R110 and the closed sets of names the rules use. -/

namespace Sys2Proof

/-- The measured quantity, `TEMP` or `HUMI` (00_scope.md R11, 10_state.md R22). -/
inductive Kind where
  | temp
  | humi
deriving DecidableEq, Repr, Inhabited

/-- The causes of 60_exceptions.md R230; the 3-bit codes of 30_encoding.md R101 are `Cause.code`. -/
inductive Cause where
  | eNone
  | eCmd
  | eStatus
  | eData
  | eTimeout
  | eDecode
deriving DecidableEq, Repr, Inhabited

/-- The values of `spf_pc` (10_state.md R21). Code 7 has no value here (30_encoding.md R106 (a)). -/
inductive SpfPc where
  | prbTgl
  | prbId
  | idle
  | cmd
  | poll
  | data
  | conv
deriving DecidableEq, Repr, Inhabited

/-- The values of `sdl_pc` (10_state.md R31). Codes 14 and 15 have no value here (30_encoding.md R106 (a)). -/
inductive SdlPc where
  | bootProbe
  | bootRinit
  | bootRrecv
  | bootArm
  | park
  | led1
  | callT
  | waitT
  | callH
  | waitH
  | diag
  | send
  | led2
  | fatal
deriving DecidableEq, Repr, Inhabited

/-- The formats that select an operation (30_encoding.md R90). `DONE` and `MSG` select none: they are the types
`Machine.Done` and the message bytes. -/
inductive Format where
  | busW2
  | busW1R1
  | busW1R2
  | cmd
  | uspf
  | usdl
  | evt
  | stage
deriving DecidableEq, Repr, Inhabited

/-- A code presented at one of the block's interfaces: the format says which interface, the bytes are its bits
(log 15: a code narrower than a byte stands in the low bits of one byte). -/
structure Code where
  fmt   : Format
  bytes : Bytes
deriving DecidableEq, Repr, Inhabited

/-- The 33 operations of 30_encoding.md R110, one constructor per row of opcode_table.json, in the table's order but
for the two datapath stages, which stand last there too. -/
inductive Instr where
  | btCmdt
  | btCmdh
  | btStat
  | btData
  | btId
  | startT
  | startH
  | tgl
  | rdid
  | wrcmd
  | rdst
  | rddt
  | conv
  | bprobe
  | rinit
  | rrecv
  | arm
  | park
  | ledon1
  | callT
  | waitT
  | callH
  | waitH
  | diag
  | send
  | ledon2
  | halt
  | tu
  | tick
  | txdone
  | rxdata
  /-- `ACC`: the kind bit is carried and ignored; `b0`, `b1` are the two bytes read (41_convert.md R150). -/
  | acc (k : Kind) (b0 b1 : Byte)
  /-- `SHROFF`: the kind bit selects the shift and the offset (41_convert.md R151, R152). -/
  | shroff (k : Kind)
deriving DecidableEq, Repr, Inhabited

end Sys2Proof
end

