-- ==== Sys2Proof/Config.lean ====
section
/-! DEFINITION. What is fixed for the machine (00_scope.md R6), what the source leaves open (R8), the types of what
crosses the boundary from outside, and the free values. -/

namespace Sys2Proof

/-- The constants of 00_scope.md R6, "each is also a field of the model's configuration record". -/
structure Rom where
  /-- `DEV_ID`, carried as a number in the primitive's `dev` argument (30_encoding.md R94). -/
  devId     : Nat
  /-- `BUS_CLK` in Hz; no rule reads it. -/
  busClk    : Nat
  /-- `TMO` in bus time-units; enforced by the bus primitive (20_memory.md R79). -/
  tmo       : Nat
  /-- `P` in scheduler time-units. -/
  period    : Nat
  /-- `D` in scheduler time-units. -/
  delay     : Nat
  /-- `RADIO_FREQ` in Hz. -/
  radioFreq : Nat
  ownAddr   : Bytes
  gwAddr    : Bytes
  shT       : Nat
  divT      : Nat
  offT      : Nat
  shH       : Nat
  divH      : Nat
  offH      : Nat
deriving DecidableEq, Repr

/-- The constant ROM of 10_state.md R38 with the values of 00_scope.md R6. -/
def Config.rom : Rom where
  devId     := 0x40
  busClk    := 400000
  tmo       := 1000
  period    := 300
  delay     := 15
  radioFreq := 915000000
  ownAddr   := [0x4E, 0x65, 0x74, 0x64, 0x75, 0x69, 0x6E, 0x6F, 0x31]
  gwAddr    := [0x4C, 0x6F, 0x52, 0x61, 0x49, 0x6F, 0x54, 0x31]
  shT       := 2
  divT      := 32
  offT      := 50
  shH       := 4
  divH      := 16
  offH      := 24

/-- `TICK_OVERRUN` (R8): what a tick raised outside `L_PARK` does. -/
inductive TickOverrun where
  | pend
  | drop
deriving DecidableEq, Repr, Inhabited

/-- `FMT_TIE` (R8): how an exact tie rounds. -/
inductive FmtTie where
  | halfAway
  | halfEven
deriving DecidableEq, Repr, Inhabited

/-- `FMT_NEGZERO` (R8): the sign of a negative value that rounds to zero. -/
inductive FmtNegzero where
  | plain
  | signed
deriving DecidableEq, Repr, Inhabited

/-- `utf8_valid` (R8) as plain data: the recommended default, or an uninterpreted total function chosen by a number
(log 6). -/
inductive Utf8Rule where
  | wellFormed
  | other (id : Nat)
deriving DecidableEq, Repr, Inhabited

/-- The open parameters of 00_scope.md R8. They stand in State as read-only data, so that a statement about every state
holds for every value of them. -/
structure Params where
  configReg      : Byte
  statusReg      : Byte
  dataReg        : Byte
  idReg          : Byte
  cmdMeasureTemp : Byte
  cmdMeasureHumi : Byte
  paBoost        : Bool
  rxCrc          : Bool
  pollLimit      : Option Nat
  tickOverrun    : TickOverrun
  fmtTie         : FmtTie
  fmtNegzero     : FmtNegzero
  utf8Valid      : Utf8Rule
  /-- Opaque; no rule reads it (40_spf_measure.md R120). -/
  toggleShape    : Nat
deriving DecidableEq, Repr, Inhabited

/-- One inbound packet, the arguments of `RXDATA` (00_scope.md R7). The three metrics are uninterpreted byte images:
the block copies them and never computes on them (R11; log 8). -/
structure Packet where
  address     : Bytes
  snr         : Bytes
  packetRssi  : Bytes
  ambientRssi : Bytes
  payload     : Bytes
deriving DecidableEq, Repr, Inhabited

/-- One answer of the bus agent: the executed count and the bytes it supplies; no transaction of the block reads more
than two (20_memory.md R67, R77, R80). -/
structure BusAnswer where
  n  : Nat
  b0 : Byte
  b1 : Byte
deriving DecidableEq, Repr, Inhabited

/-- Who moves in a step (00_scope.md R18): a sequencer of the timer path, or an external agent raising an event. -/
inductive Turn where
  | spf
  | sdl
  | tu
  | tick
  | txdone
  | rxdata (p : Packet)
deriving DecidableEq, Repr, Inhabited

/-! Free values: constants without a body, applied to a counter or to operands. -/

/-- FREE VALUE (log 1): the turn taken when none is queued. -/
opaque Config.freeTurn : Nat → Turn

/-- FREE VALUE (log 2): the bus agent's answer when none is queued. -/
opaque Config.freeAnswer : Nat → BusAnswer

/-- FREE VALUE (log 7): the timestamp of a diagnostic line, "any value; NDC names no clock" (42_sdl_dispatch.md R180). -/
opaque Config.freeTimestamp : Nat → Nat

/-- FREE VALUE (log 6): the text test of `Utf8Rule.other`. -/
opaque Config.freeUtf8 : Nat → Bytes → Bool

/-- FREE VALUE (log 5): `PA_BOOST`, OPEN in 00_scope.md R8. -/
opaque Config.paBoost : Bool

/-- FREE VALUE (log 5): `RX_CRC`, OPEN in 00_scope.md R8. -/
opaque Config.rxCrc : Bool

/-- FREE VALUE (log 5): `TOGGLE_SHAPE`, opaque in 00_scope.md R8. -/
opaque Config.toggleShape : Nat

/-- The defaults 00_scope.md R8 recommends; the six bus codes are from outside the source (log 4). -/
def Config.defaults : Params where
  configReg      := 0x03
  statusReg      := 0x00
  dataReg        := 0x01
  idReg          := 0x11
  cmdMeasureTemp := 0x11
  cmdMeasureHumi := 0x01
  paBoost        := Config.paBoost
  rxCrc          := Config.rxCrc
  pollLimit      := none
  tickOverrun    := .pend
  fmtTie         := .halfAway
  fmtNegzero     := .plain
  utf8Valid      := .wellFormed
  toggleShape    := Config.toggleShape

end Sys2Proof
end

