-- ==== Sys2Proof/WellFormed.lean ====
section
/-! DEFINITION. What the rules require of parameters and of instructions. -/

namespace Sys2Proof

/-- 00_scope.md R8: the humidity command byte is different from the temperature one, and a poll limit is positive. -/
def Params.wf (p : Params) : Bool :=
  p.cmdMeasureHumi != p.cmdMeasureTemp && p.pollLimit != some 0

/-- An instruction is well formed under parameters that let a decoder on the bus tell its transaction from the others
of its shape (30_encoding.md R111): two command writes differ in the command byte, a status read and an identifier read
in the register address. Every other operation is well formed under all parameters. -/
def Instr.wf (p : Params) : Instr → Bool
  | .btCmdh => p.cmdMeasureHumi != p.cmdMeasureTemp
  | .btId   => p.idReg != p.statusReg
  | .btCmdt | .btStat | .btData | .startT | .startH => true
  | .tgl | .rdid | .wrcmd | .rdst | .rddt | .conv => true
  | .bprobe | .rinit | .rrecv | .arm | .park | .ledon1 | .callT => true
  | .waitT | .callH | .waitH | .diag | .send | .ledon2 | .halt => true
  | .tu | .tick | .txdone | .rxdata => true
  | .acc _ _ _ | .shroff _ => true

end Sys2Proof
end

