-- ==== Sys2Proof/Machine/State.lean ====
section
/-! DEFINITION. Everything the spec gives the machine as plain data (10_state.md), the reset state, and the reasons a
step can stop. -/

namespace Sys2Proof.Machine

/-! ## Memory

The only addressable storage of the block is the message buffer (20_memory.md R60), byte index 0 to 12. It is a list of
cells in one canonical form. -/

abbrev Memory := List Host.Cell

/-- What an unlisted address reads as (log 17, DESIGN CHOICE: the spec gives the buffer no reset contents). -/
def Memory.unlisted : Byte := 0

/-- The number of bytes of the message buffer (10_state.md R36). -/
abbrev msgSize : Nat := 13

/-- The canonical form above an address bound: addresses at least `lo` and strictly rising, no entry equal to what an
unlisted address reads as. -/
def Memory.wfFrom (lo : Nat) : Memory → Bool
  | [] => true
  | c :: rest => lo ≤ c.1 && c.2 != Memory.unlisted && Memory.wfFrom (c.1 + 1) rest

/-- The canonical form of a memory. -/
def Memory.wf (m : Memory) : Bool := Memory.wfFrom 0 m

/-! ## Events -/

/-- SPF's answer to SDL, format `DONE` (30_encoding.md R97). -/
inductive Done where
  | ok (kind : Kind) (num : S16)
  | err (kind : Kind) (cause : Cause)
deriving DecidableEq, Repr

/-- The events of the trace (10_state.md R46), one constructor per row. `done` covers both forms of `DONE`. -/
inductive Event where
  | lineToggle
  | bus (dev : Nat) (w : Bytes) (rlen : Nat) (n : Nat) (r : Bytes)
  | start (kind : Kind)
  | done (d : Done)
  | radioInit (freq : Nat) (paBoost rxCrc : Bool)
  | radioReceive (addr : Bytes)
  | radioSend (dst payload : Bytes)
  | ind (level : Bool)
  | diagSample (ts : Nat) (tNum hNum : S16)
  | diagRx (ts : Nat) (addrText snr packetRssi ambientRssi : Bytes) (payloadLen : Nat) (payloadText : Bytes)
  | diagDecodeError
  | tick
  | txdone
  | rxdata (p : Packet)
  | tu
deriving DecidableEq, Repr

/-! ## The plan of turns -/

/-- One entry of the queue of turns to come (log 1): a turn the spec admits between any two steps; the host's reset
(70_reset_and_hazards.md R270); or a code presented at an interface from outside the sequencers (log 10). -/
inductive Slot where
  | turn (t : Turn)
  | hostReset
  | issue (c : Code)
deriving DecidableEq, Repr

/-! ## Why a step can stop -/

/-- Faults. The spec gives the machine none (60_exceptions.md R230); the one here marks an unreachable input. -/
inductive Fault where
  /-- Raised by `step` alone, never by an instruction's meaning: a code was issued to which no row of the table gives an
  operation (30_encoding.md R106 (a), 93_implementation_defined.md U8; log 22). Safe: the machine stops where the spec
  gives no behaviour. -/
  | unassignedCode (c : Code)
deriving DecidableEq, Repr

/-- Refusals. -/
inductive Refusal where
  /-- Raised by an arm of `exec` whose instruction has no meaning yet; no arm of this model does. Safe. -/
  | notModelled (mnemonic : String)
deriving DecidableEq, Repr

/-! ## State -/

/-- The state of the block and of what the model holds of its environment. Each field's docstring names the register and
its rule. -/
structure State where
  /-- `spf_pc` (R21). -/
  spfPc      : SpfPc
  /-- `kind` (R22). -/
  kind       : Kind
  /-- `status` (R23). -/
  status     : Byte
  /-- `acc` (R24). -/
  acc        : U16
  /-- `raw` (R25). -/
  raw        : U16
  /-- `val` (R26). -/
  val        : S16
  /-- `err` (R27). -/
  err        : Cause
  /-- `bus_held` (R28). -/
  busHeld    : Bool
  /-- `poll_cnt` (R29; log 19). -/
  pollCnt    : Nat
  /-- `sdl_pc` (R31). -/
  sdlPc      : SdlPc
  /-- `armed` (R32). -/
  armed      : Bool
  /-- `tmr` (R32). -/
  tmr        : BitVec 9
  /-- `tick_pend` (R33). -/
  tickPend   : Bool
  /-- `indicator` (R34). -/
  indicator  : Bool
  /-- `t_val` (R35). -/
  tVal       : S16
  /-- `h_val` (R35). -/
  hVal       : S16
  /-- `msg` (R36; log 17). -/
  msg        : Memory
  /-- `msg_len` (R36). -/
  msgLen     : BitVec 4
  /-- `fatal_cause` (R37). -/
  fatalCause : Cause
  /-- `fatal_kind` (R37). -/
  fatalKind  : Kind
  /-- The open parameters (R38, 00_scope.md R8); no operation writes them. -/
  cfg        : Params
  /-- The inbound radio buffers, the arguments of `RXDATA` (R41; log 9). -/
  inbound    : Packet
  /-- The trace (R46), oldest event first; no rule reads it. -/
  trace      : List Event
  /-- MODEL'S OWN (log 1): the turns to come. -/
  plan       : List Slot
  /-- MODEL'S OWN (log 2): the bus agent's next answers. -/
  answers    : List BusAnswer
  /-- MODEL'S OWN (logs 1, 2, 7): where the next free value is drawn. -/
  draw       : Nat
deriving DecidableEq, Repr

/-- The state after reset (10_state.md R45). Every register the table calls unspecified has the value log 3 names. -/
def State.reset : State where
  spfPc      := .prbTgl
  kind       := .temp
  status     := 0
  acc        := 0
  raw        := 0
  val        := 0
  err        := .eNone
  busHeld    := true
  pollCnt    := 0
  sdlPc      := .bootProbe
  armed      := false
  tmr        := 0
  tickPend   := false
  indicator  := false
  tVal       := 0
  hVal       := 0
  msg        := []
  msgLen     := 0
  fatalCause := .eNone
  fatalKind  := .temp
  cfg        := Config.defaults
  inbound    := ⟨[], [], [], [], []⟩
  trace      := []
  plan       := []
  answers    := []
  draw       := 0

end Sys2Proof.Machine
end

