-- ==== Sys2Proof/Machine/Operands.lean ====
section
/-! DEFINITION. The operands of the datapath: the per-kind constants (30_encoding.md R103), the byte-read accumulator and
the right-shift converter (41_convert.md). All are pure functions. -/

namespace Sys2Proof.Machine

/-- `SH(kind)` (R103). -/
def shiftOf : Kind → Nat
  | .temp => Config.rom.shT
  | .humi => Config.rom.shH

/-- `DIV(kind)` (R103, R153). -/
def divOf : Kind → Nat
  | .temp => Config.rom.divT
  | .humi => Config.rom.divH

/-- `OFF(kind)` (R103). -/
def offOf : Kind → Nat
  | .temp => Config.rom.offT
  | .humi => Config.rom.offH

/-- `OFFN(kind) = OFF * DIV` (R103, R152). -/
def offsetOf (k : Kind) : Nat := offOf k * divOf k

/-- The command byte of a measurement (R103). -/
def commandOf (p : Params) : Kind → Byte
  | .temp => p.cmdMeasureTemp
  | .humi => p.cmdMeasureHumi

/-- `Acc16`, byte-serial: `a = ((a << 8) | b) mod 2^16` for each byte received (41_convert.md R150). -/
def acc16 (bs : Bytes) : U16 :=
  bs.foldl (fun a b => (a <<< 8) ||| b.setWidth 16) 0

/-- `Shr`, the logical right shift (41_convert.md R151). -/
def shr (k : Kind) (a : U16) : U16 := a >>> shiftOf k

/-- `Num`, the offset: computed exactly and narrowed to `s16` (41_convert.md R152). -/
def num (k : Kind) (r : U16) : S16 := BitVec.ofInt 16 ((r.toNat : Int) - (offsetOf k : Int))

/-- `Conv`, the composed conversion (41_convert.md R159). -/
def convertBytes (k : Kind) (b0 b1 : Byte) : S16 := num k (shr k (acc16 [b0, b1]))

end Sys2Proof.Machine
end

