-- ==== Sys2Proof/Machine/Flags.lean ====
section
/-! DEFINITION. The one-bit conditions that steer the block (10_state.md R40). There are no arithmetic condition codes
(41_convert.md R156). -/

namespace Sys2Proof.Machine

/-- The zero test on the executed count: `n = 0` is failure, any `n > 0` success (20_memory.md R77). -/
def failed (a : BusAnswer) : Bool := a.n == 0

/-- The ready bit, bit 0 of the status byte: 1 means conversion in progress (30_encoding.md R104). -/
def busy (s : Byte) : Bool := s.getLsbD 0

/-- The poll bound: `before` is the number of status reads issued before this one (40_spf_measure.md R134). -/
def pollExpired (p : Params) (before : Nat) : Bool :=
  match p.pollLimit with
  | none => false
  | some limit => decide (limit ≤ before + 1)

/-- Whether a tick raised at `pc` is remembered (42_sdl_dispatch.md R184). -/
def tickRemembered (o : TickOverrun) (pc : SdlPc) : Bool :=
  match o with
  | .pend => true
  | .drop => pc == .park

end Sys2Proof.Machine
end

