-- ==== Sys2Proof/Machine/Formatter.lean ====
section
/-! DEFINITION. The message formatter (43_format.md). All arithmetic is on integers. -/

namespace Sys2Proof.Machine

/-- `Digit(d)`, the byte `0x30 + d` (43_format.md R215). -/
def digit (d : Nat) : Byte := BitVec.ofNat 8 (0x30 + d)

/-- The digits of `n` before those of `tail`, most significant first; `fuel` bounds the number of digits. -/
def decDigits : (fuel n : Nat) → (tail : Bytes) → Bytes
  | 0, _, tail => tail
  | fuel + 1, n, tail =>
    if n < 10 then digit n :: tail else decDigits fuel (n / 10) (digit (n % 10) :: tail)

/-- `Dec(n)`: decimal digits, most significant first, no leading zeros, `"0"` for 0 (43_format.md R215). -/
def dec (n : Nat) : Bytes := decDigits (n + 1) n []

/-- `RoundQ(a, 16)`, round to nearest with the tie mode (43_format.md R213). -/
def roundQ (tie : FmtTie) (a : Nat) : Nat :=
  let q := a / 16
  let r := a % 16
  if r > 8 then q + 1
  else if r < 8 then q
  else match tie with
    | .halfAway => q + 1
    | .halfEven => q + q % 2

/-- `Sign(x, q)` (43_format.md R214). -/
def signOf (nz : FmtNegzero) (x : Int) (q : Nat) : Bytes :=
  if x ≥ 0 then []
  else if q > 0 then [0x2D]
  else match nz with
    | .plain => []
    | .signed => [0x2D]

/-- A rounded number of tenths with one decimal: `Dec(q div 10) ++ "." ++ Digit(q mod 10)`. -/
def tenths (q : Nat) : Bytes := dec (q / 10) ++ [0x2E, digit (q % 10)]

/-- `FmtT`, temperature with one decimal (43_format.md R211). -/
def fmtT (p : Params) (t : S16) : Bytes :=
  let q := roundQ p.fmtTie (t.toInt.natAbs * 5)
  signOf p.fmtNegzero t.toInt q ++ tenths q

/-- `FmtH`, humidity with no decimals (43_format.md R212). -/
def fmtH (p : Params) (h : S16) : Bytes :=
  let q := roundQ p.fmtTie h.toInt.natAbs
  signOf p.fmtNegzero h.toInt q ++ dec q

/-- `FmtH1`, the diagnostic rendering of humidity with one decimal (43_format.md R217). -/
def fmtH1 (p : Params) (h : S16) : Bytes :=
  let q := roundQ p.fmtTie (h.toInt.natAbs * 10)
  signOf p.fmtNegzero h.toInt q ++ tenths q

/-- `Format(t, h) = "t " ++ FmtT(t) ++ ",H " ++ FmtH(h)` (43_format.md R210). -/
def formatMessage (p : Params) (t h : S16) : Bytes :=
  [0x74, 0x20] ++ fmtT p t ++ [0x2C, 0x48, 0x20] ++ fmtH p h

end Sys2Proof.Machine
end

