-- ==== Sys2Proof/Machine/Text.lean ====
section
/-! DEFINITION. The text test of the receive path, `utf8_valid` (00_scope.md R8, 42_sdl_dispatch.md R186). -/

namespace Sys2Proof.Machine

/-- A UTF-8 continuation byte. -/
def isCont (b : Byte) : Bool := 0x80 ≤ b.toNat && b.toNat ≤ 0xBF

/-- The second byte of a three-byte form: no overlong form after `E0`, no surrogate after `ED`. -/
def second3 (b0 b1 : Byte) : Bool :=
  if b0 = 0xE0 then 0xA0 ≤ b1.toNat && b1.toNat ≤ 0xBF
  else if b0 = 0xED then 0x80 ≤ b1.toNat && b1.toNat ≤ 0x9F
  else isCont b1

/-- The second byte of a four-byte form: no overlong form after `F0`, nothing above U+10FFFF after `F4`. -/
def second4 (b0 b1 : Byte) : Bool :=
  if b0 = 0xF0 then 0x90 ≤ b1.toNat && b1.toNat ≤ 0xBF
  else if b0 = 0xF4 then 0x80 ≤ b1.toNat && b1.toNat ≤ 0x8F
  else isCont b1

/-- Well-formed UTF-8: "no overlong forms, no surrogates, at most U+10FFFF" (93_implementation_defined.md G4). PRESUMED:
the byte ranges are those of the Unicode Standard (log 6). -/
def utf8WellFormed : Bytes → Bool
  | [] => true
  | b0 :: rest =>
    if b0.toNat < 0x80 then utf8WellFormed rest
    else if b0.toNat < 0xC2 then false
    else if b0.toNat < 0xE0 then
      match rest with
      | b1 :: rest' => isCont b1 && utf8WellFormed rest'
      | _ => false
    else if b0.toNat < 0xF0 then
      match rest with
      | b1 :: b2 :: rest' => second3 b0 b1 && isCont b2 && utf8WellFormed rest'
      | _ => false
    else if b0.toNat < 0xF5 then
      match rest with
      | b1 :: b2 :: b3 :: rest' =>
        second4 b0 b1 && isCont b2 && isCont b3 && utf8WellFormed rest'
      | _ => false
    else false

/-- `utf8_valid` under the parameter (log 6). -/
def utf8Valid (r : Utf8Rule) (bs : Bytes) : Bool :=
  match r with
  | .wellFormed => utf8WellFormed bs
  | .other id => Config.freeUtf8 id bs

end Sys2Proof.Machine
end

