-- ==== Sys2Proof/Machine/Ops.lean ====
section
/-! DEFINITION. The named operations over memory, registers and the boundary that the meanings share: the message
buffer, the trace, the bus primitive, the accepted `START`, the fail exit, the delivery of `DONE`, the fatal entry and
the host's reset. -/

namespace Sys2Proof.Machine

/-! ## The message buffer (20_memory.md R60) -/

def Memory.read : Memory → Nat → Byte
  | [], _ => Memory.unlisted
  | c :: rest, a => if c.1 = a then c.2 else Memory.read rest a

/-- Lists `b` at `a`, in place of what was listed there. -/
def Memory.insert : Memory → Nat → Byte → Memory
  | [], a, b => [(a, b)]
  | c :: rest, a, b =>
    if a < c.1 then (a, b) :: c :: rest
    else if a = c.1 then (a, b) :: rest
    else c :: Memory.insert rest a b

/-- Takes the entry at `a` out. -/
def Memory.erase : Memory → Nat → Memory
  | [], _ => []
  | c :: rest, a =>
    if a < c.1 then c :: rest
    else if a = c.1 then rest
    else c :: Memory.erase rest a

/-- Writes one byte and keeps the canonical form. -/
def Memory.write (m : Memory) (a : Nat) (b : Byte) : Memory :=
  if b = Memory.unlisted then Memory.erase m a else Memory.insert m a b

/-- Writes a byte sequence at `base`, index 0 first. -/
def Memory.store : Memory → Nat → Bytes → Memory
  | m, _, [] => m
  | m, base, b :: bs => Memory.store (Memory.write m base b) (base + 1) bs

/-- `msg <- m ; msg_len <- len(m)` (42_sdl_dispatch.md R181). The buffer has byte indices 0 to 12 only and `msg_len` 4
bits: every message of a reachable state fits both (43_format.md R216; log 17). -/
def State.storeMessage (m : Bytes) (s : State) : State :=
  { s with msg := s.msg.store 0 (m.take msgSize), msgLen := BitVec.ofNat 4 m.length }

/-- The message the buffer holds: its first `msg_len` bytes. -/
def State.message (s : State) : Bytes := (List.range s.msgLen.toNat).map s.msg.read

/-! ## The trace and the free values -/

/-- `emit E(args)` (00_scope.md R17). -/
def State.emit (e : Event) (s : State) : State := { s with trace := s.trace ++ [e] }

/-- The timestamp draw of a diagnostic line (42_sdl_dispatch.md R180, R186; log 7). -/
def State.timestamp (s : State) : Nat := Config.freeTimestamp s.draw

def State.afterTimestamp (s : State) : State := { s with draw := s.draw + 1 }

/-! ## The bus primitive (00_scope.md R13, R14; 20_memory.md R77 to R80) -/

/-- The answer the bus agent gives to the next transaction: any at all (R80; log 2). -/
def State.answer (s : State) : BusAnswer :=
  match s.answers with
  | [] => Config.freeAnswer s.draw
  | a :: _ => a

/-- The environment after that answer. -/
def State.afterAnswer (s : State) : State :=
  { s with answers := s.answers.tail, draw := if s.answers.isEmpty then s.draw + 1 else s.draw }

/-- The byte sequence `r` of an answer, of length exactly `rlen` (R13). -/
def answerBytes (a : BusAnswer) (rlen : Nat) : Bytes := [a.b0, a.b1].take rlen

/-- `BusXfer(dev, w, rlen)`: one transaction, recorded as one `BUS` event; it always returns (R80 (b)). -/
def busXfer (dev : Nat) (w : Bytes) (rlen : Nat) (s : State) : BusAnswer × State :=
  (s.answer, s.afterAnswer.emit (.bus dev w rlen s.answer.n (answerBytes s.answer rlen)))

/-- `MemRead(addr, n)` (R14). -/
def memRead (addr : Byte) (n : Nat) (s : State) : BusAnswer × State :=
  busXfer Config.rom.devId [addr] n s

/-- `MemWrite(addr, 1, v)` (R14). -/
def memWrite (addr v : Byte) (s : State) : BusAnswer × State :=
  busXfer Config.rom.devId [addr, v] 0 s

/-! ## Call, return and failure -/

/-- SPF accepts a `START` (40_spf_measure.md R122, R123). -/
def State.accept (k : Kind) (s : State) : State :=
  { s with kind := k, err := .eNone, pollCnt := 0, busHeld := true, spfPc := .cmd }

/-- The fail exit (40_spf_measure.md R128), the tail of the failing micro-operation; the `DONE` it emits is the second
part of the result. -/
def spfFail (e : Cause) (s : State) : State × Option Done :=
  ({ s with err := e, busHeld := false, spfPc := .idle }, some (.err s.kind e))

/-- The fatal entry (60_exceptions.md R240). There is no return from it (R242). -/
def State.fatalEntry (k : Kind) (e : Cause) (s : State) : State :=
  { s with fatalKind := k, fatalCause := e, armed := false, sdlPc := .fatal }

/-- The kind a `DONE` answers for. -/
def Done.kind : Done → Kind
  | .ok k _ => k
  | .err k _ => k

/-- `DONE` emitted by SPF and consumed by SDL in the same step (42_sdl_dispatch.md R177, R179, R188). SDL consumes a
`DONE` of the kind it waits for; in states no run reaches, where it waits for none or another, the event is only
recorded (log 12). -/
def State.deliver (d : Done) (s : State) : State :=
  let s' := s.emit (.done d)
  match s.sdlPc, d with
  | .waitT, .ok .temp v => { s' with tVal := v, sdlPc := .callH }
  | .waitT, .err .temp e => s'.fatalEntry .temp e
  | .waitH, .ok .humi v => { s' with hVal := v, sdlPc := .diag }
  | .waitH, .err .humi e => s'.fatalEntry .humi e
  | _, _ => s'

/-- An SPF micro-operation's result made the next state: its `DONE`, if it emits one, is delivered. -/
def settle (r : State × Option Done) : State :=
  match r.2 with
  | none => r.1
  | some d => r.1.deliver d

/-- `CALL` and the acceptance `START` of the same kind, one atomic step (42_sdl_dispatch.md R176, R178, R188): enabled
when SDL is at `call` and SPF is idle, and then SDL waits at `wait`. -/
def callStart (k : Kind) (call wait : SdlPc) (s : State) : State :=
  if s.sdlPc = call ∧ s.spfPc = .idle then
    { (s.emit (.start k)).accept k with sdlPc := wait }
  else s

/-- Writes the indicator and records the write, changed or not (10_state.md R34, R46). -/
def State.setIndicator (level : Bool) (s : State) : State :=
  ({ s with indicator := level }).emit (.ind level)

/-- `TICK` performed (42_sdl_dispatch.md R184). -/
def State.raiseTick (s : State) : State :=
  { s.emit .tick with tickPend := s.tickPend || tickRemembered s.cfg.tickOverrun s.sdlPc }

/-- The host's reset, in any state (70_reset_and_hazards.md R270): every register and the trace as after reset; the
parameters hold their values and the environment is left as it is (log 24). -/
def State.hostReset (s : State) : State :=
  { State.reset with
    cfg := s.cfg, inbound := s.inbound, plan := s.plan, answers := s.answers, draw := s.draw }

end Sys2Proof.Machine
end

