-- ==== Sys2Proof/Machine/EventOps.lean ====
section
/-! DEFINITION. The event operations (42_sdl_dispatch.md R184 to R187). Each incoming event is recorded in the trace
first (95_test_vectors.md section 9). -/

namespace Sys2Proof.Machine

/-- `TU` (R187): one scheduler time-unit elapses. -/
def execTu (s : State) : Host.Outcome State Fault Refusal :=
  let s' := s.emit .tu
  .next (if s.armed then
    if s.tmr = 1 then ({ s' with tmr := BitVec.ofNat 9 Config.rom.period }).raiseTick
    else { s' with tmr := s.tmr - 1 }
  else s')

/-- `TICK` (R184): enabled only when the timer is armed. -/
def execTick (s : State) : Host.Outcome State Fault Refusal :=
  .next (if s.armed then s.raiseTick else s)

/-- `TXDONE` (R185): clears the indicator, in every value of `sdl_pc`. -/
def execTxdone (s : State) : Host.Outcome State Fault Refusal :=
  .next ((s.emit .txdone).setIndicator false)

/-- What `RXDATA` logs for a packet (R186): the decoded line, or the `DecodeError`, caught here. -/
def receiveLine (p : Params) (ts : Nat) (pkt : Packet) : Event :=
  if utf8Valid p.utf8Valid pkt.address && utf8Valid p.utf8Valid pkt.payload then
    .diagRx ts pkt.address pkt.snr pkt.packetRssi pkt.ambientRssi pkt.payload.length pkt.payload
  else .diagDecodeError

/-- `RXDATA` (R186): the packet stands in the inbound buffers; no register is written. -/
def execRxdata (s : State) : Host.Outcome State Fault Refusal :=
  .next (((s.emit (.rxdata s.inbound)).afterTimestamp).emit
    (receiveLine s.cfg s.timestamp s.inbound))

end Sys2Proof.Machine
end

