-- ==== Sys2Proof/Machine/Bus.lean ====
section
/-! DEFINITION. The five bus transactions (40_spf_measure.md R129 to R133). `xfer…` is the transaction with its answer,
as the issuing micro-operation uses it; `exec…` is the table row's meaning, the transaction alone: one `BUS` event, no
register of the block (log 10). -/

namespace Sys2Proof.Machine

/-- `BT.CMDT` (R129): `MemWrite(CONFIG_REG, 1, CMD_MEASURE_TEMP)`. -/
def xferCmdt (s : State) : BusAnswer × State := memWrite s.cfg.configReg s.cfg.cmdMeasureTemp s

/-- `BT.CMDH` (R130): `MemWrite(CONFIG_REG, 1, CMD_MEASURE_HUMI)`. -/
def xferCmdh (s : State) : BusAnswer × State := memWrite s.cfg.configReg s.cfg.cmdMeasureHumi s

/-- `BT.STAT` (R131): `MemRead(STATUS_REG, 1)`. -/
def xferStat (s : State) : BusAnswer × State := memRead s.cfg.statusReg 1 s

/-- `BT.DATA` (R132): `MemRead(DATA_REG, 2)`. -/
def xferData (s : State) : BusAnswer × State := memRead s.cfg.dataReg 2 s

/-- `BT.ID` (R133): a write of `[ID_REG]`, a read of one byte. -/
def xferId (s : State) : BusAnswer × State := memRead s.cfg.idReg 1 s

def execBtCmdt (s : State) : Host.Outcome State Fault Refusal := .next (xferCmdt s).2

def execBtCmdh (s : State) : Host.Outcome State Fault Refusal := .next (xferCmdh s).2

def execBtStat (s : State) : Host.Outcome State Fault Refusal := .next (xferStat s).2

def execBtData (s : State) : Host.Outcome State Fault Refusal := .next (xferData s).2

def execBtId (s : State) : Host.Outcome State Fault Refusal := .next (xferId s).2

end Sys2Proof.Machine
end

