-- ==== Sys2Proof/Machine/Stages.lean ====
section
/-! DEFINITION. The two datapath stages (41_convert.md R150 to R152). `RDDT` and `CONV` run them; as table rows of their
own they write the registers those micro-operations write through them (log 10). -/

namespace Sys2Proof.Machine

/-- `acc <- Acc16([b0, b1])` (R150). -/
def accumulate (b0 b1 : Byte) (s : State) : State := { s with acc := acc16 [b0, b1] }

/-- `raw <- Shr(kind, acc)`, `val <- Num(kind, Shr(kind, acc))` (R151, R152). -/
def shiftOffset (k : Kind) (s : State) : State :=
  { s with raw := shr k s.acc, val := num k (shr k s.acc) }

/-- `ACC`: the kind bit is ignored (R90, R150). -/
def execAcc (_k : Kind) (b0 b1 : Byte) (s : State) : Host.Outcome State Fault Refusal :=
  .next (accumulate b0 b1 s)

/-- `SHROFF`: the kind bit selects the shift and the offset (R151, R152). -/
def execShroff (k : Kind) (s : State) : Host.Outcome State Fault Refusal :=
  .next (shiftOffset k s)

end Sys2Proof.Machine
end

