-- ==== Sys2Proof/Machine/Spf.lean ====
section
/-! DEFINITION. The Sensor Polling FSM (40_spf_measure.md): one definition per micro-operation's pseudocode, giving the
next registers and the `DONE` emitted if any, and the meanings of its table rows. An operation whose enabling condition
does not hold changes nothing (log 1). -/

namespace Sys2Proof.Machine

/-- `TGL` (R120). -/
def tglRule (s : State) : State := { s.emit .lineToggle with spfPc := .prbId }

/-- `RDID` (R121): count and byte are both discarded. -/
def rdidRule (s : State) : State :=
  { (xferId s).2 with busHeld := false, spfPc := .idle }

/-- `WRCMD` (R124). -/
def wrcmdRule (s : State) : State × Option Done :=
  let x := match s.kind with
    | .temp => xferCmdt s
    | .humi => xferCmdh s
  if failed x.1 then spfFail .eCmd x.2
  else ({ x.2 with spfPc := .poll }, none)

/-- `RDST` with the optional poll bound (R125, R134): the count is tested first, then the ready bit, then the bound. -/
def rdstRule (s : State) : State × Option Done :=
  let x := xferStat s
  let counted := { x.2 with pollCnt := s.pollCnt + 1 }
  if failed x.1 then spfFail .eStatus counted
  else
    let read := { counted with status := x.1.b0 }
    if !busy x.1.b0 then ({ read with spfPc := .data }, none)
    else if pollExpired s.cfg s.pollCnt then spfFail .eTimeout read
    else ({ read with spfPc := .poll }, none)

/-- `RDDT` (R126), through the accumulator stage. -/
def rddtRule (s : State) : State × Option Done :=
  let x := xferData s
  if failed x.1 then spfFail .eData x.2
  else ({ accumulate x.1.b0 x.1.b1 x.2 with spfPc := .conv }, none)

/-- `CONV` (R127), through the shift-and-offset stage. -/
def convRule (s : State) : State × Option Done :=
  let t := shiftOffset s.kind s
  ({ t with busHeld := false, spfPc := .idle }, some (.ok s.kind t.val))

/-- The micro-operation `spf_pc` selects (30_encoding.md R98); in `S_IDLE` SPF has none of its own. -/
def spfRule (s : State) : State × Option Done :=
  match s.spfPc with
  | .prbTgl => (tglRule s, none)
  | .prbId => (rdidRule s, none)
  | .idle => (s, none)
  | .cmd => wrcmdRule s
  | .poll => rdstRule s
  | .data => rddtRule s
  | .conv => convRule s

def execTgl (s : State) : Host.Outcome State Fault Refusal :=
  .next (if s.spfPc = .prbTgl then tglRule s else s)

def execRdid (s : State) : Host.Outcome State Fault Refusal :=
  .next (if s.spfPc = .prbId then rdidRule s else s)

/-- `START.T` (R122): enabled when SPF is idle and SDL executes `CALL.T`; the two are one step (log 11). -/
def execStartT (s : State) : Host.Outcome State Fault Refusal :=
  .next (callStart .temp .callT .waitT s)

/-- `START.H` (R123): enabled when SPF is idle and SDL executes `CALL.H`; the two are one step (log 11). -/
def execStartH (s : State) : Host.Outcome State Fault Refusal :=
  .next (callStart .humi .callH .waitH s)

def execWrcmd (s : State) : Host.Outcome State Fault Refusal :=
  .next (if s.spfPc = .cmd then settle (wrcmdRule s) else s)

def execRdst (s : State) : Host.Outcome State Fault Refusal :=
  .next (if s.spfPc = .poll then settle (rdstRule s) else s)

def execRddt (s : State) : Host.Outcome State Fault Refusal :=
  .next (if s.spfPc = .data then settle (rddtRule s) else s)

def execConv (s : State) : Host.Outcome State Fault Refusal :=
  .next (if s.spfPc = .conv then settle (convRule s) else s)

end Sys2Proof.Machine
end

