-- ==== Sys2Proof/Machine/Sdl.lean ====
section
/-! DEFINITION. The Sampling and Dispatch Loop (42_sdl_dispatch.md R170 to R183). An operation whose enabling condition
does not hold changes nothing: SDL waits (log 1). -/

namespace Sys2Proof.Machine

/-- `BPROBE` (R170): waits for SPF's probe. -/
def execBprobe (s : State) : Host.Outcome State Fault Refusal :=
  .next (if s.sdlPc = .bootProbe ∧ s.spfPc = .idle then { s with sdlPc := .bootRinit } else s)

/-- `RINIT` (R171). -/
def execRinit (s : State) : Host.Outcome State Fault Refusal :=
  .next (if s.sdlPc = .bootRinit then
    { s.emit (.radioInit Config.rom.radioFreq s.cfg.paBoost s.cfg.rxCrc) with sdlPc := .bootRrecv }
  else s)

/-- `RRECV` (R172). -/
def execRrecv (s : State) : Host.Outcome State Fault Refusal :=
  .next (if s.sdlPc = .bootRrecv then
    { s.emit (.radioReceive Config.rom.ownAddr) with sdlPc := .bootArm }
  else s)

/-- `ARM` (R173). -/
def execArm (s : State) : Host.Outcome State Fault Refusal :=
  .next (if s.sdlPc = .bootArm then
    { s with tmr := BitVec.ofNat 9 Config.rom.delay, armed := true, sdlPc := .park }
  else s)

/-- `PARK` (R174): idle until a tick is pending. -/
def execPark (s : State) : Host.Outcome State Fault Refusal :=
  .next (if s.sdlPc = .park ∧ s.tickPend = true then
    { s with tickPend := false, sdlPc := .led1 }
  else s)

/-- `LEDON1` (R175). -/
def execLedon1 (s : State) : Host.Outcome State Fault Refusal :=
  .next (if s.sdlPc = .led1 then { s.setIndicator true with sdlPc := .callT } else s)

/-- `CALL.T` (R176), one step with `START.T` (R188). -/
def execCallT (s : State) : Host.Outcome State Fault Refusal :=
  .next (callStart .temp .callT .waitT s)

/-- SDL's return from a measurement of kind `k` at `wait` (R177, R179): enabled when SPF emits `DONE` of that kind in
this step, so the step is SPF's micro-operation together with SDL's half (R188; log 13). -/
def waitDone (k : Kind) (wait : SdlPc) (s : State) : State :=
  if s.sdlPc = wait then
    match spfRule s with
    | (s', some d) => if d.kind = k then s'.deliver d else s
    | (_, none) => s
  else s

/-- `WAIT.T` (R177). -/
def execWaitT (s : State) : Host.Outcome State Fault Refusal :=
  .next (waitDone .temp .waitT s)

/-- `CALL.H` (R178), one step with `START.H` (R188). -/
def execCallH (s : State) : Host.Outcome State Fault Refusal :=
  .next (callStart .humi .callH .waitH s)

/-- `WAIT.H` (R179). -/
def execWaitH (s : State) : Host.Outcome State Fault Refusal :=
  .next (waitDone .humi .waitH s)

/-- `DIAG` (R180). -/
def execDiag (s : State) : Host.Outcome State Fault Refusal :=
  .next (if s.sdlPc = .diag then
    { s.afterTimestamp.emit (.diagSample s.timestamp s.tVal s.hVal) with sdlPc := .send }
  else s)

/-- `SEND` (R181): the bytes are handed over by value in the step that stores them. -/
def execSend (s : State) : Host.Outcome State Fault Refusal :=
  .next (if s.sdlPc = .send then
    { (s.storeMessage (formatMessage s.cfg s.tVal s.hVal)).emit
        (.radioSend Config.rom.gwAddr (formatMessage s.cfg s.tVal s.hVal)) with sdlPc := .led2 }
  else s)

/-- `LEDON2` (R182): the write is performed literally. -/
def execLedon2 (s : State) : Host.Outcome State Fault Refusal :=
  .next (if s.sdlPc = .led2 then { s.setIndicator true with sdlPc := .park } else s)

/-- `HALT` (R183): SDL has no enabled micro-operation, for ever; nothing changes. -/
def execHalt (s : State) : Host.Outcome State Fault Refusal := .next s

end Sys2Proof.Machine
end

