-- ==== Sys2Proof/Machine/Dispatch.lean ====
section
/-! DEFINITION. One arm per operation. -/

namespace Sys2Proof.Machine

def exec (i : Instr) (s : State) : Host.Outcome State Fault Refusal :=
  match i with
  -- bus transactions
  | .btCmdt => Sys2Proof.Machine.execBtCmdt s
  | .btCmdh => Sys2Proof.Machine.execBtCmdh s
  | .btStat => Sys2Proof.Machine.execBtStat s
  | .btData => Sys2Proof.Machine.execBtData s
  | .btId => Sys2Proof.Machine.execBtId s
  -- interface commands
  | .startT => Sys2Proof.Machine.execStartT s
  | .startH => Sys2Proof.Machine.execStartH s
  -- SPF micro-operations
  | .tgl => Sys2Proof.Machine.execTgl s
  | .rdid => Sys2Proof.Machine.execRdid s
  | .wrcmd => Sys2Proof.Machine.execWrcmd s
  | .rdst => Sys2Proof.Machine.execRdst s
  | .rddt => Sys2Proof.Machine.execRddt s
  | .conv => Sys2Proof.Machine.execConv s
  -- SDL micro-operations
  | .bprobe => Sys2Proof.Machine.execBprobe s
  | .rinit => Sys2Proof.Machine.execRinit s
  | .rrecv => Sys2Proof.Machine.execRrecv s
  | .arm => Sys2Proof.Machine.execArm s
  | .park => Sys2Proof.Machine.execPark s
  | .ledon1 => Sys2Proof.Machine.execLedon1 s
  | .callT => Sys2Proof.Machine.execCallT s
  | .waitT => Sys2Proof.Machine.execWaitT s
  | .callH => Sys2Proof.Machine.execCallH s
  | .waitH => Sys2Proof.Machine.execWaitH s
  | .diag => Sys2Proof.Machine.execDiag s
  | .send => Sys2Proof.Machine.execSend s
  | .ledon2 => Sys2Proof.Machine.execLedon2 s
  | .halt => Sys2Proof.Machine.execHalt s
  -- event operations
  | .tu => Sys2Proof.Machine.execTu s
  | .tick => Sys2Proof.Machine.execTick s
  | .txdone => Sys2Proof.Machine.execTxdone s
  | .rxdata => Sys2Proof.Machine.execRxdata s
  -- datapath stages
  | .acc k b0 b1 => Sys2Proof.Machine.execAcc k b0 b1 s
  | .shroff k => Sys2Proof.Machine.execShroff k s

end Sys2Proof.Machine
end

