-- ==== Sys2Proof/Decode.lean ====
section
/-! DEFINITION. Decoding of a code at an interface, total on any bytes and rejecting by name (30_encoding.md R91 to
R100), the encoder written from the same tables, the numeric codes of the closed sets, and the reading of a word of
opcode_table.json. -/

namespace Sys2Proof

/-! ## Numeric codes of the closed sets -/

/-- 10_state.md R22. -/
def Kind.code : Kind → Nat
  | .temp => 0
  | .humi => 1

/-- 10_state.md R21, 30_encoding.md R98. -/
def SpfPc.code : SpfPc → Nat
  | .prbTgl => 0
  | .prbId  => 1
  | .idle   => 2
  | .cmd    => 3
  | .poll   => 4
  | .data   => 5
  | .conv   => 6

/-- 10_state.md R31, 30_encoding.md R99. -/
def SdlPc.code : SdlPc → Nat
  | .bootProbe => 0
  | .bootRinit => 1
  | .bootRrecv => 2
  | .bootArm   => 3
  | .park      => 4
  | .led1      => 5
  | .callT     => 6
  | .waitT     => 7
  | .callH     => 8
  | .waitH     => 9
  | .diag      => 10
  | .send      => 11
  | .led2      => 12
  | .fatal     => 13

/-- 30_encoding.md R101. -/
def Cause.code : Cause → Nat
  | .eNone    => 0
  | .eCmd     => 1
  | .eStatus  => 2
  | .eData    => 3
  | .eTimeout => 4
  | .eDecode  => 5

/-! ## Decoding -/

/-- Why a code selects no operation. -/
inductive Reject where
  /-- The bytes end before the code or its operands do. -/
  | truncated
  /-- `USPF` code 2, `S_IDLE`: SPF has no micro-operation of its own, it accepts a `START` (30_encoding.md R98). -/
  | spfIdle
  /-- No row of the table has this code at this interface (30_encoding.md R106). -/
  | unassigned
deriving DecidableEq, Repr

/-- `CMD`, one bit (30_encoding.md R96). -/
def decodeCmd (b : Byte) : Except Reject Instr :=
  match b.toNat with
  | 0 => .ok .startT
  | 1 => .ok .startH
  | _ => .error .unassigned

/-- `USPF`, three bits (30_encoding.md R98). -/
def decodeUspf (b : Byte) : Except Reject Instr :=
  match b.toNat with
  | 0 => .ok .tgl
  | 1 => .ok .rdid
  | 2 => .error .spfIdle
  | 3 => .ok .wrcmd
  | 4 => .ok .rdst
  | 5 => .ok .rddt
  | 6 => .ok .conv
  | _ => .error .unassigned

/-- `USDL`, four bits (30_encoding.md R99). -/
def decodeUsdl (b : Byte) : Except Reject Instr :=
  match b.toNat with
  | 0  => .ok .bprobe
  | 1  => .ok .rinit
  | 2  => .ok .rrecv
  | 3  => .ok .arm
  | 4  => .ok .park
  | 5  => .ok .ledon1
  | 6  => .ok .callT
  | 7  => .ok .waitT
  | 8  => .ok .callH
  | 9  => .ok .waitH
  | 10 => .ok .diag
  | 11 => .ok .send
  | 12 => .ok .ledon2
  | 13 => .ok .halt
  | _  => .error .unassigned

/-- `EVT`, two bits (30_encoding.md R100). -/
def decodeEvt (b : Byte) : Except Reject Instr :=
  match b.toNat with
  | 0 => .ok .tu
  | 1 => .ok .tick
  | 2 => .ok .txdone
  | 3 => .ok .rxdata
  | _ => .error .unassigned

/-- `STAGE`, the table-only pattern `s k` (30_encoding.md R90); after an `ACC` byte stand its operand bytes `b0`, `b1`
(log 15). -/
def decodeStage (b : Byte) (rest : Bytes) : Except Reject (Instr × Bytes) :=
  match b.toNat with
  | 0 => match rest with
    | b0 :: b1 :: rest' => .ok (.acc .temp b0 b1, rest')
    | _ => .error .truncated
  | 1 => match rest with
    | b0 :: b1 :: rest' => .ok (.acc .humi b0 b1, rest')
    | _ => .error .truncated
  | 2 => .ok (.shroff .temp, rest)
  | 3 => .ok (.shroff .humi, rest)
  | _ => .error .unassigned

/-- `BUS-W2`, the two written bytes (30_encoding.md R91, R111). -/
def decodeBusW2 (p : Params) (reg cmd : Byte) : Except Reject Instr :=
  if reg = p.configReg then
    if cmd = p.cmdMeasureTemp then .ok .btCmdt
    else if cmd = p.cmdMeasureHumi then .ok .btCmdh
    else .error .unassigned
  else .error .unassigned

/-- `BUS-W1R1`, the written byte (30_encoding.md R92, R111). -/
def decodeBusW1R1 (p : Params) (reg : Byte) : Except Reject Instr :=
  if reg = p.statusReg then .ok .btStat
  else if reg = p.idReg then .ok .btId
  else .error .unassigned

/-- `BUS-W1R2`, the written byte (30_encoding.md R93, R111). -/
def decodeBusW1R2 (p : Params) (reg : Byte) : Except Reject Instr :=
  if reg = p.dataReg then .ok .btData else .error .unassigned

/-- The operation a code selects at an interface, and the bytes after it. The format is given by the interface, never
read from the bytes (30_encoding.md R107). -/
def decode (p : Params) (fmt : Format) (bs : Bytes) : Except Reject (Instr × Bytes) :=
  match fmt, bs with
  | .busW2, reg :: cmd :: rest => (decodeBusW2 p reg cmd).map (·, rest)
  | .busW1R1, reg :: rest => (decodeBusW1R1 p reg).map (·, rest)
  | .busW1R2, reg :: rest => (decodeBusW1R2 p reg).map (·, rest)
  | .cmd, b :: rest => (decodeCmd b).map (·, rest)
  | .uspf, b :: rest => (decodeUspf b).map (·, rest)
  | .usdl, b :: rest => (decodeUsdl b).map (·, rest)
  | .evt, b :: rest => (decodeEvt b).map (·, rest)
  | .stage, b :: rest => decodeStage b rest
  | _, _ => .error .truncated

/-! ## Encoding -/

/-- The format of an operation's row in opcode_table.json. -/
def Instr.format : Instr → Format
  | .btCmdt | .btCmdh => .busW2
  | .btStat | .btId => .busW1R1
  | .btData => .busW1R2
  | .startT | .startH => .cmd
  | .tgl | .rdid | .wrcmd | .rdst | .rddt | .conv => .uspf
  | .bprobe | .rinit | .rrecv | .arm | .park | .ledon1 | .callT => .usdl
  | .waitT | .callH | .waitH | .diag | .send | .ledon2 | .halt => .usdl
  | .tu | .tick | .txdone | .rxdata => .evt
  | .acc _ _ _ | .shroff _ => .stage

/-- The bytes of an operation's code: the written bytes of a transaction, else the number of its row. -/
def encodeBytes (p : Params) : Instr → Bytes
  | .btCmdt => [p.configReg, p.cmdMeasureTemp]
  | .btCmdh => [p.configReg, p.cmdMeasureHumi]
  | .btStat => [p.statusReg]
  | .btData => [p.dataReg]
  | .btId   => [p.idReg]
  | .startT => [0]
  | .startH => [1]
  | .tgl    => [0]
  | .rdid   => [1]
  | .wrcmd  => [3]
  | .rdst   => [4]
  | .rddt   => [5]
  | .conv   => [6]
  | .bprobe => [0]
  | .rinit  => [1]
  | .rrecv  => [2]
  | .arm    => [3]
  | .park   => [4]
  | .ledon1 => [5]
  | .callT  => [6]
  | .waitT  => [7]
  | .callH  => [8]
  | .waitH  => [9]
  | .diag   => [10]
  | .send   => [11]
  | .ledon2 => [12]
  | .halt   => [13]
  | .tu     => [0]
  | .tick   => [1]
  | .txdone => [2]
  | .rxdata => [3]
  | .acc k b0 b1 => [BitVec.ofNat 8 k.code, b0, b1]
  | .shroff k    => [BitVec.ofNat 8 (2 + k.code)]

/-- The code of an operation under the parameters `p`. -/
def encode (p : Params) (i : Instr) : Code := ⟨i.format, encodeBytes p i⟩

/-! ## The words of opcode_table.json -/

/-- The interface and the bytes a word of the table stands for. The table's patterns of different formats overlap
(code 0 is a row of six formats), and a word in whole bytes does not say which format it is of, so a choice is made
(log 14): a width below a byte names its format (`EVT` before the table-only `STAGE` at two bits); a whole byte is
first one of the two read transactions, whose rows are a whole byte wide, then the narrowest of `EVT`, `USPF`, `USDL`
that has the code; two bytes are a command write, its first written byte the most significant (log 16). Operand
bytes, which the table gives no bits, are zero. -/
def tableCode (nbits w : Nat) : Option Code :=
  let b := BitVec.ofNat 8 w
  if nbits = 0 then none
  else if w ≥ 2 ^ nbits then none
  else if nbits = 1 then some ⟨.cmd, [b]⟩
  else if nbits = 2 then some ⟨.evt, [b]⟩
  else if nbits = 3 then some ⟨.uspf, [b]⟩
  else if nbits = 4 then some ⟨.usdl, [b]⟩
  else if nbits ≤ 8 then
    if w = 0x00 ∨ w = 0x11 then some ⟨.busW1R1, [b]⟩
    else if w = 0x01 then some ⟨.busW1R2, [b]⟩
    else if w ≤ 3 then some ⟨.evt, [b]⟩
    else if w ≤ 6 then some ⟨.uspf, [b]⟩
    else some ⟨.usdl, [b]⟩
  else if nbits ≤ 16 then some ⟨.busW2, [BitVec.ofNat 8 (w / 256), b]⟩
  else none

/-- The instruction the decoder reads from a word of opcode_table.json, with the default bus codes the table is
written with (92_eei_decisions.md D38). -/
def decodeTableWord (nbits w : Nat) : Option Instr :=
  match tableCode nbits w with
  | none => none
  | some c =>
    match decode Config.defaults c.fmt c.bytes with
    | .ok (i, _) => some i
    | .error _ => none

end Sys2Proof
end

