-- ==== Sys2Proof/Machine/Fetch.lean ====
section
/-! DEFINITION. Where the next operation comes from (00_scope.md R18, 20_memory.md R75; log 1): the next slot of the
plan, or a free turn; for a sequencer's turn the code is its pc, for an event the event's code. -/

namespace Sys2Proof.Machine

/-- The slot taken in this step. -/
def State.nextSlot (s : State) : Slot :=
  match s.plan with
  | [] => .turn (Config.freeTurn s.draw)
  | x :: _ => x

/-- What a slot puts into the inbound radio buffers: a delivered packet (log 9). -/
def Slot.delivered (held : Packet) : Slot → Packet
  | .turn (.rxdata p) => p
  | _ => held

/-- The state once the slot is taken. -/
def State.afterSlot (s : State) : State :=
  { s with
    plan := s.plan.tail
    draw := if s.plan.isEmpty then s.draw + 1 else s.draw
    inbound := s.nextSlot.delivered s.inbound }

/-- The code a turn presents: the sequencer's pc (30_encoding.md R98, R99) or the event code (R100). -/
def turnCode (s : State) : Turn → Code
  | .spf => ⟨.uspf, [BitVec.ofNat 8 s.spfPc.code]⟩
  | .sdl => ⟨.usdl, [BitVec.ofNat 8 s.sdlPc.code]⟩
  | .tu => ⟨.evt, [0]⟩
  | .tick => ⟨.evt, [1]⟩
  | .txdone => ⟨.evt, [2]⟩
  | .rxdata _ => ⟨.evt, [3]⟩

/-- The code fetched in this step; none when the host resets. -/
def State.fetch (s : State) : Option Code :=
  match s.nextSlot with
  | .turn t => some (turnCode s t)
  | .issue c => some c
  | .hostReset => none

/-- The state in which the next step runs the operation `i` when its code is presented: the unit's pc selects it and
its enabling condition holds (log 21). -/
def State.ready (i : Instr) (s : State) : State :=
  match i with
  | .startT | .callT => { s with spfPc := .idle, sdlPc := .callT }
  | .startH | .callH => { s with spfPc := .idle, sdlPc := .callH }
  | .tgl => { s with spfPc := .prbTgl }
  | .rdid => { s with spfPc := .prbId }
  | .wrcmd => { s with spfPc := .cmd }
  | .rdst => { s with spfPc := .poll }
  | .rddt => { s with spfPc := .data }
  | .conv => { s with spfPc := .conv }
  | .bprobe => { s with spfPc := .idle, sdlPc := .bootProbe }
  | .rinit => { s with sdlPc := .bootRinit }
  | .rrecv => { s with sdlPc := .bootRrecv }
  | .arm => { s with sdlPc := .bootArm }
  | .park => { s with sdlPc := .park, tickPend := true }
  | .ledon1 => { s with sdlPc := .led1 }
  | .waitT => { s with sdlPc := .waitT, spfPc := .conv, kind := .temp }
  | .waitH => { s with sdlPc := .waitH, spfPc := .conv, kind := .humi }
  | .diag => { s with sdlPc := .diag }
  | .send => { s with sdlPc := .send }
  | .ledon2 => { s with sdlPc := .led2 }
  | .halt => { s with sdlPc := .fatal }
  | .tick => { s with armed := true }
  | .btCmdt | .btCmdh | .btStat | .btData | .btId => s
  | .tu | .txdone | .rxdata => s
  | .acc _ _ _ | .shroff _ => s

/-- The slot that presents the operation `i`: its unit's turn, its event, or its code at the interface. -/
def slotOf (s : State) (i : Instr) : Slot :=
  match i with
  | .tgl | .rdid | .wrcmd | .rdst | .rddt | .conv => .turn .spf
  | .bprobe | .rinit | .rrecv | .arm | .park | .ledon1 | .callT => .turn .sdl
  | .waitT | .callH | .waitH | .diag | .send | .ledon2 | .halt => .turn .sdl
  | .tu => .turn .tu
  | .tick => .turn .tick
  | .txdone => .turn .txdone
  | .rxdata => .turn (.rxdata s.inbound)
  | .btCmdt | .btCmdh | .btStat | .btData | .btId => .issue (encode s.cfg i)
  | .startT | .startH => .issue (encode s.cfg i)
  | .acc _ _ _ | .shroff _ => .issue (encode s.cfg i)

/-- The state with `i` placed where the next step takes it. -/
def State.place (i : Instr) (s : State) : State :=
  { s.ready i with plan := slotOf s i :: s.plan }

end Sys2Proof.Machine
end

