-- ==== Sys2Proof/Machine/Step.lean ====
section
/-! DEFINITION. One step: take the next slot, decode the code it presents, run the operation. -/

namespace Sys2Proof.Machine

/-- One atomic step (00_scope.md R18). SPF's turn in `S_IDLE` selects no operation and changes nothing
(30_encoding.md R98); a code the table gives no operation, or with bytes left over, is a fault (log 22). -/
def step (s : State) : Host.Outcome State Fault Refusal :=
  match s.fetch with
  | none => .next s.afterSlot.hostReset
  | some c =>
    match decode s.cfg c.fmt c.bytes with
    | .ok (i, []) => exec i s.afterSlot
    | .ok (_, _ :: _) => .fault (.unassignedCode c)
    | .error .spfIdle => .next s.afterSlot
    | .error _ => .fault (.unassignedCode c)

/-- The state in which the next step runs the operation a word of opcode_table.json stands for (logs 14, 20, 21). A word
that stands for none is issued as it is, and the step stops on it. -/
def State.withFetchWord (s : State) (nbits w : Nat) : State :=
  match decodeTableWord nbits w with
  | some i => s.place i
  | none => { s with plan := .issue ((tableCode nbits w).getD ⟨.stage, []⟩) :: s.plan }

end Sys2Proof.Machine
end

