-- ==== Sys2Proof/Safety.lean ====
section
/-! DEFINITION. The vocabulary of claims: what a safe state is, which events a step may add, and what a run of one
measurement looks like. -/

namespace Sys2Proof.Machine

/-! ## Phases of the two sequencers -/

/-- SPF is inside a measurement cycle (10_state.md R44 (b)). -/
abbrev SpfPc.measuring (pc : SpfPc) : Bool :=
  match pc with
  | .cmd | .poll | .data | .conv => true
  | .prbTgl | .prbId | .idle => false

/-- SDL is past boot and not in the absorbing state: the phases in which the timer is armed. -/
abbrev SdlPc.running (pc : SdlPc) : Bool :=
  match pc with
  | .bootProbe | .bootRinit | .bootRrecv | .bootArm | .fatal => false
  | .park | .led1 | .callT | .waitT | .callH | .waitH | .diag | .send | .led2 => true

/-- SDL has latched the temperature of the current cycle. -/
abbrev SdlPc.hasT (pc : SdlPc) : Bool :=
  match pc with
  | .callH | .waitH | .diag | .send | .led2 => true
  | _ => false

/-- SDL has latched the humidity of the current cycle. -/
abbrev SdlPc.hasH (pc : SdlPc) : Bool :=
  match pc with
  | .diag | .send | .led2 => true
  | _ => false

/-! ## Invariants -/

/-- The bus handle (10_state.md R28): held exactly while SPF is not idle. -/
abbrev HandleInv (s : State) : Prop :=
  s.busHeld = true ↔ s.spfPc ≠ .idle

/-- The coupling of the two sequencers (10_state.md R44): the probe runs only in `L_BOOT_PROBE`; SPF measures exactly
while SDL waits for a measurement, of the kind it waits for; so it is idle in every other state of SDL. -/
abbrev CouplingInv (s : State) : Prop :=
  ((s.spfPc = .prbTgl ∨ s.spfPc = .prbId) → s.sdlPc = .bootProbe) ∧
  (SpfPc.measuring s.spfPc = true ↔ (s.sdlPc = .waitT ∨ s.sdlPc = .waitH)) ∧
  (s.sdlPc = .waitT → s.kind = .temp) ∧
  (s.sdlPc = .waitH → s.kind = .humi)

/-- The sampling timer (42_sdl_dispatch.md R184, R187): armed exactly in the running phases, its counter within 1 to
300 while armed, and no tick pending before it is armed. -/
abbrev TimerInv (s : State) : Prop :=
  (s.armed = true ↔ SdlPc.running s.sdlPc = true) ∧
  (s.armed = true → 1 ≤ s.tmr.toNat ∧ s.tmr.toNat ≤ 300) ∧
  (s.tickPend = true → SdlPc.running s.sdlPc = true ∨ s.sdlPc = .fatal)

/-- Errors (30_encoding.md R101, 60_exceptions.md R234, R240, R243): an error is recorded exactly in `L_FATAL`, with its
cause; `E_DECODE` reaches no register, and `E_TIMEOUT` needs a poll limit. -/
abbrev ErrorInv (s : State) : Prop :=
  (s.err ≠ .eNone ↔ s.sdlPc = .fatal) ∧
  (s.sdlPc = .fatal → s.fatalCause = s.err ∧ s.fatalKind = s.kind) ∧
  s.err ≠ .eDecode ∧
  (s.err = .eTimeout → s.cfg.pollLimit ≠ none)

/-- `x` is below a poll limit, if there is one. -/
abbrev belowLimit (limit : Option Nat) (x : Nat) : Prop :=
  match limit with
  | none => True
  | some l => x < l

/-- The poll bound (40_spf_measure.md R134): while SPF may still read the status, fewer than `POLL_LIMIT` reads of the
cycle have been issued. -/
abbrev PollInv (s : State) : Prop :=
  s.cfg.wf = true → (s.spfPc = .cmd ∨ s.spfPc = .poll) → belowLimit s.cfg.pollLimit s.pollCnt

/-- The temperature numerators the converter can produce (41_convert.md R154). -/
abbrev tempRange (t : S16) : Prop := -1600 ≤ t.toInt ∧ t.toInt ≤ 14783

/-- The humidity numerators the converter can produce (41_convert.md R154). -/
abbrev humiRange (h : S16) : Prop := -384 ≤ h.toInt ∧ h.toInt ≤ 3711

/-- The latched values (10_state.md R35) are converter results once latched in the current cycle. -/
abbrev RangeInv (s : State) : Prop :=
  (SdlPc.hasT s.sdlPc = true → tempRange s.tVal) ∧
  (SdlPc.hasH s.sdlPc = true → humiRange s.hVal)

/-- The message buffer (10_state.md R36): canonical, within its 13 bytes, and after `SEND` a message of 9 to 13 bytes. -/
abbrev MessageInv (s : State) : Prop :=
  s.msg.wf = true ∧ (∀ c ∈ s.msg, c.1 < msgSize) ∧
  (s.sdlPc = .led2 → 9 ≤ s.msgLen.toNat ∧ s.msgLen.toNat ≤ 13)

/-- The invariant of the machine. -/
abbrev Inv (s : State) : Prop :=
  HandleInv s ∧ CouplingInv s ∧ TimerInv s ∧ ErrorInv s ∧ PollInv s ∧ RangeInv s ∧ MessageInv s

/-! ## The trace -/

/-- Number of `START` events. -/
def starts : List Event → Nat
  | [] => 0
  | .start _ :: es => starts es + 1
  | _ :: es => starts es

/-- Number of `DONE` events. -/
def dones : List Event → Nat
  | [] => 0
  | .done _ :: es => dones es + 1
  | _ :: es => dones es

/-- The handshake (30_encoding.md R97): every accepted `START` has its `DONE`, but for the one in progress. -/
abbrev HandshakeInv (s : State) : Prop :=
  starts s.trace = dones s.trace + (SpfPc.measuring s.spfPc).toNat

/-- The five transactions of the block, by written bytes and read length (20_memory.md R67, 30_encoding.md R111). -/
def transactions (p : Params) : List (Bytes × Nat) :=
  [([p.configReg, p.cmdMeasureTemp], 0), ([p.configReg, p.cmdMeasureHumi], 0), ([p.statusReg], 1),
   ([p.dataReg], 2), ([p.idReg], 1)]

/-- A `BUS` event is one of the five transactions with device `0x40`, answered with the bytes it asked for. -/
abbrev busEventOk (p : Params) : Event → Prop
  | .bus dev w rlen _ r => dev = 0x40 ∧ (w, rlen) ∈ transactions p ∧ r.length = rlen
  | _ => True

/-- A message handed to the radio goes to the gateway and has 9 to 13 bytes. -/
abbrev sendEventOk : Event → Prop
  | .radioSend dst payload => dst = Config.rom.gwAddr ∧ 9 ≤ payload.length ∧ payload.length ≤ 13
  | _ => True

/-- The events that may still occur after the fatal entry (60_exceptions.md R244). -/
abbrev afterFatalOk : Event → Prop
  | .ind level => level = false
  | .txdone | .rxdata _ | .diagRx _ _ _ _ _ _ _ | .diagDecodeError | .tu => True
  | _ => False

/-! ## Who runs what -/

/-- The micro-operation `spf_pc` selects; none in `S_IDLE` (30_encoding.md R98). -/
def SpfPc.operation : SpfPc → Option Instr
  | .prbTgl => some .tgl
  | .prbId => some .rdid
  | .idle => none
  | .cmd => some .wrcmd
  | .poll => some .rdst
  | .data => some .rddt
  | .conv => some .conv

/-- The micro-operation `sdl_pc` selects (30_encoding.md R99). -/
def SdlPc.operation : SdlPc → Instr
  | .bootProbe => .bprobe
  | .bootRinit => .rinit
  | .bootRrecv => .rrecv
  | .bootArm => .arm
  | .park => .park
  | .led1 => .ledon1
  | .callT => .callT
  | .waitT => .waitT
  | .callH => .callH
  | .waitH => .waitH
  | .diag => .diag
  | .send => .send
  | .led2 => .ledon2
  | .fatal => .halt

/-- SDL waits for a measurement of the kind SPF holds (42_sdl_dispatch.md R177, R179). -/
abbrev waiting (s : State) : Prop :=
  (s.sdlPc = .waitT ∧ s.kind = .temp) ∨ (s.sdlPc = .waitH ∧ s.kind = .humi)

/-- Number of `TICK` events. -/
def ticks : List Event → Nat
  | [] => 0
  | .tick :: es => ticks es + 1
  | _ :: es => ticks es

/-- The operations that send a transaction to the bus: SPF's own (20_memory.md R61), SDL's return that runs with them,
and the transactions' own rows. -/
def usesBus : Instr → Bool
  | .rdid | .wrcmd | .rdst | .rddt | .waitT | .waitH => true
  | .btCmdt | .btCmdh | .btStat | .btData | .btId => true
  | _ => false

/-- A slot with the contents of a delivered packet taken out. -/
def Slot.blind : Slot → Slot
  | .turn (.rxdata _) => .turn (.rxdata default)
  | x => x

/-- Two states that differ at most in what came in by radio: the inbound buffers, packets still to be delivered, and
the trace. -/
abbrev sameButInbound (s s' : State) : Prop :=
  { s with inbound := default, trace := [], plan := [] } =
    { s' with inbound := default, trace := [], plan := [] } ∧
  s.plan.map Slot.blind = s'.plan.map Slot.blind

/-! ## Runs -/

/-- `n` steps, ended by a stop: `Host.Core.run` of this machine (Laws/Run.lean, `run_eq_core`). -/
def run : Nat → State → Host.Outcome State Fault Refusal
  | 0, s => .next s
  | n + 1, s =>
    match step s with
    | .next t => run n t
    | stop => stop

/-- A plan that starts with `n` turns of SPF. -/
def spfTurns (n : Nat) (rest : List Slot) : List Slot := List.replicate n (.turn .spf) ++ rest

/-- A plan that starts with `n` turns of SDL. -/
def sdlTurns (n : Nat) (rest : List Slot) : List Slot := List.replicate n (.turn .sdl) ++ rest

/-- A plan that starts with `n` pulses of the time-unit source. -/
def tuTurns (n : Nat) (rest : List Slot) : List Slot := List.replicate n (.turn .tu) ++ rest

/-- The `BUS` events of status reads answered `as`. -/
def statusReads (p : Params) (as : List BusAnswer) : List Event :=
  as.map fun a => .bus 0x40 [p.statusReg] 1 a.n [a.b0]

/-- An answer with a positive count and bit 0 set: busy. -/
abbrev busyAnswer (a : BusAnswer) : Prop := failed a = false ∧ busy a.b0 = true

/-- An answer with a positive count and bit 0 clear: data may be read. -/
abbrev clearAnswer (a : BusAnswer) : Prop := failed a = false ∧ busy a.b0 = false

/-- The `BUS` events of one measurement cycle of kind `k` that reads the data: the command write answered `c`, the
status reads answered `as`, the data read answered `d` (40_spf_measure.md R136). -/
def cycleEvents (p : Params) (k : Kind) (c : BusAnswer) (as : List BusAnswer) (d : BusAnswer) : List Event :=
  .bus 0x40 [p.configReg, commandOf p k] 0 c.n [] :: statusReads p as ++
    [.bus 0x40 [p.dataReg] 2 d.n [d.b0, d.b1]]

end Sys2Proof.Machine
end

