-- ==== Sys2Proof/Certificates/Slice0/Obligations.lean ====
section
/-! DEFINITION. The statements for the provers, in the order of OBLIGATIONS.json. Each docstring names the rule of
spec/ or the log entry it formalises. An equation `exec i s = .next t` with `t` written as an update of `s` gives the
result, the completion and the frame at once: every field not named is as it was. -/

section

open Sys2Proof Sys2Proof.Machine

/-! ## Encoding and decoding -/

/-- R90 to R93, R96, R98 to R100, R111: no bit of a code is dropped. Every well-formed operation, with every operand
byte, under every value of the parameters, and with any bytes behind it (the byte form of a code is log 15). -/
def Obligations.DecodeOfEncode : Prop :=
  ∀ (p : Params) (i : Instr) (rest : Bytes), i.wf p = true →
    decode p (encode p i).fmt ((encode p i).bytes ++ rest) = .ok (i, rest)

/-- The other direction: a code has one meaning, and what it decodes to is well formed, of that interface's format, and
encodes to the bytes that were read. -/
def Obligations.DecodedBytesAreTheEncoding : Prop :=
  ∀ (p : Params) (fmt : Format) (bs rest : Bytes) (i : Instr), decode p fmt bs = .ok (i, rest) →
    i.wf p = true ∧ i.format = fmt ∧ bs = encodeBytes p i ++ rest

/-- R98, R99: the turn of a sequencer presents the code of its pc and nothing else, and the code selects the row's
operation. The model's own choices: the code is presented as one byte (log 15); `USPF` code 2, where SPF accepts a
`START`, selects no micro-operation of its own, and the codes 7, 14, 15 without a row (R106) are refused (log 22). -/
def Obligations.SequencerCodesSelectTheirOperation : Prop :=
  (∀ s : State, turnCode s .spf = ⟨.uspf, [BitVec.ofNat 8 s.spfPc.code]⟩ ∧
    turnCode s .sdl = ⟨.usdl, [BitVec.ofNat 8 s.sdlPc.code]⟩) ∧
  [SpfPc.prbTgl, .prbId, .idle, .cmd, .poll, .data, .conv].map SpfPc.code = [0, 1, 2, 3, 4, 5, 6] ∧
  [SdlPc.bootProbe, .bootRinit, .bootRrecv, .bootArm, .park, .led1, .callT, .waitT, .callH, .waitH, .diag, .send,
    .led2, .fatal].map SdlPc.code = [0, 1, 2, 3, 4, 5, 6, 7, 8, 9, 10, 11, 12, 13] ∧
  (∀ p : Params,
    decode p .uspf [0] = .ok (.tgl, []) ∧ decode p .uspf [1] = .ok (.rdid, []) ∧
    decode p .uspf [2] = .error .spfIdle ∧ decode p .uspf [3] = .ok (.wrcmd, []) ∧
    decode p .uspf [4] = .ok (.rdst, []) ∧ decode p .uspf [5] = .ok (.rddt, []) ∧
    decode p .uspf [6] = .ok (.conv, []) ∧ decode p .uspf [7] = .error .unassigned ∧
    decode p .usdl [0] = .ok (.bprobe, []) ∧ decode p .usdl [1] = .ok (.rinit, []) ∧
    decode p .usdl [2] = .ok (.rrecv, []) ∧ decode p .usdl [3] = .ok (.arm, []) ∧
    decode p .usdl [4] = .ok (.park, []) ∧ decode p .usdl [5] = .ok (.ledon1, []) ∧
    decode p .usdl [6] = .ok (.callT, []) ∧ decode p .usdl [7] = .ok (.waitT, []) ∧
    decode p .usdl [8] = .ok (.callH, []) ∧ decode p .usdl [9] = .ok (.waitH, []) ∧
    decode p .usdl [10] = .ok (.diag, []) ∧ decode p .usdl [11] = .ok (.send, []) ∧
    decode p .usdl [12] = .ok (.ledon2, []) ∧ decode p .usdl [13] = .ok (.halt, []) ∧
    decode p .usdl [14] = .error .unassigned ∧ decode p .usdl [15] = .error .unassigned)

/-- Words written out from the spec's encodings: the five transactions of 95_test_vectors.md V4.1 to V4.5 with the
default codes (log 4), the kind bit of `CMD` (R96), the event codes (R100), the `STAGE` pattern `s k` (R90) with the
operand bytes of `ACC` behind it (log 15). -/
def Obligations.WrittenOutCodesDecode : Prop :=
  decode Config.defaults .busW2 [0x03, 0x11] = .ok (.btCmdt, []) ∧
  decode Config.defaults .busW2 [0x03, 0x01] = .ok (.btCmdh, []) ∧
  decode Config.defaults .busW1R1 [0x00] = .ok (.btStat, []) ∧
  decode Config.defaults .busW1R2 [0x01] = .ok (.btData, []) ∧
  decode Config.defaults .busW1R1 [0x11] = .ok (.btId, []) ∧
  decode Config.defaults .cmd [0] = .ok (.startT, []) ∧ decode Config.defaults .cmd [1] = .ok (.startH, []) ∧
  decode Config.defaults .evt [0] = .ok (.tu, []) ∧ decode Config.defaults .evt [1] = .ok (.tick, []) ∧
  decode Config.defaults .evt [2] = .ok (.txdone, []) ∧ decode Config.defaults .evt [3] = .ok (.rxdata, []) ∧
  decode Config.defaults .stage [0b00, 0x19, 0x40] = .ok (.acc .temp 0x19 0x40, []) ∧
  decode Config.defaults .stage [0b01, 0x0C, 0x80] = .ok (.acc .humi 0x0C 0x80, []) ∧
  decode Config.defaults .stage [0b10] = .ok (.shroff .temp, []) ∧
  decode Config.defaults .stage [0b11] = .ok (.shroff .humi, [])

/-- The model's own choice (logs 15, 22): R106 lists codes without a row and gives no trap for them, and says nothing of
bytes that are not a code. The decoder refuses by name, at every interface, a byte at or above the number of codes and a
byte that is no parameter of the transaction (R111), whatever follows it, and it refuses as truncated bytes that end
before the code and its operands do: no byte at all, one byte of a command write, an `ACC` code with fewer than two
operand bytes. -/
def Obligations.CodesWithoutARowAreRejected : Prop :=
  ∀ (p : Params) (b : Byte) (rest : Bytes),
    (2 ≤ b.toNat → decode p .cmd (b :: rest) = .error .unassigned) ∧
    (7 ≤ b.toNat → decode p .uspf (b :: rest) = .error .unassigned) ∧
    (14 ≤ b.toNat → decode p .usdl (b :: rest) = .error .unassigned) ∧
    (4 ≤ b.toNat → decode p .evt (b :: rest) = .error .unassigned) ∧
    (4 ≤ b.toNat → decode p .stage (b :: rest) = .error .unassigned) ∧
    (b ≠ p.configReg → ∀ c, decode p .busW2 (b :: c :: rest) = .error .unassigned) ∧
    (∀ c, c ≠ p.cmdMeasureTemp → c ≠ p.cmdMeasureHumi →
      decode p .busW2 (b :: c :: rest) = .error .unassigned) ∧
    (b ≠ p.statusReg → b ≠ p.idReg → decode p .busW1R1 (b :: rest) = .error .unassigned) ∧
    (b ≠ p.dataReg → decode p .busW1R2 (b :: rest) = .error .unassigned) ∧
    (∀ fmt, decode p fmt [] = .error .truncated) ∧ decode p .busW2 [b] = .error .truncated ∧
    (b.toNat < 2 → decode p .stage [b] = .error .truncated ∧ ∀ x, decode p .stage [b, x] = .error .truncated)

/-- R103: the constants each kind selects. -/
def Obligations.PerKindConstants : Prop :=
  (shiftOf .temp = 2 ∧ divOf .temp = 32 ∧ offOf .temp = 50 ∧ offsetOf .temp = 1600) ∧
  (shiftOf .humi = 4 ∧ divOf .humi = 16 ∧ offOf .humi = 24 ∧ offsetOf .humi = 384) ∧
  (∀ p : Params, commandOf p .temp = p.cmdMeasureTemp ∧ commandOf p .humi = p.cmdMeasureHumi) ∧
  (∀ k, offsetOf k = offOf k * divOf k)

/-! ## A step -/

/-- A step runs the decoded operation on the state with the slot taken; taking the slot changes nothing but the plan,
the place free values are drawn at, and the inbound buffers of a delivered packet (logs 1, 9). -/
def Obligations.StepRunsTheDecodedInstruction : Prop :=
  ∀ (s : State) (c : Code) (i : Instr), s.fetch = some c → decode s.cfg c.fmt c.bytes = .ok (i, []) →
    step s = exec i s.afterSlot ∧
    s.afterSlot = { s with
      plan := s.plan.tail
      draw := if s.plan = [] then s.draw + 1 else s.draw
      inbound := match s.nextSlot with
        | .turn (.rxdata p) => p
        | _ => s.inbound }

/-- R18, R75, R98, R99, R100: which operation a turn runs, the turn being the slot taken (log 1). SPF and SDL run the one
their pc selects, the agents their event. The model's own choices: in `S_IDLE` SPF's turn changes nothing but the queue
(log 22), and `RXDATA` finds its packet in the inbound buffers (log 9). -/
def Obligations.TurnsRunTheSelectedOperation : Prop :=
  ∀ s : State,
    (∀ i, s.nextSlot = .turn .spf → SpfPc.operation s.spfPc = some i → step s = exec i s.afterSlot) ∧
    (s.nextSlot = .turn .spf → s.spfPc = .idle → step s = .next s.afterSlot) ∧
    (s.nextSlot = .turn .sdl → step s = exec (SdlPc.operation s.sdlPc) s.afterSlot) ∧
    (s.nextSlot = .turn .tu → step s = exec .tu s.afterSlot) ∧
    (s.nextSlot = .turn .tick → step s = exec .tick s.afterSlot) ∧
    (s.nextSlot = .turn .txdone → step s = exec .txdone s.afterSlot) ∧
    (∀ p, s.nextSlot = .turn (.rxdata p) → step s = exec .rxdata s.afterSlot ∧ s.afterSlot.inbound = p)

/-- R18, R230, R80 (b), 93_implementation_defined.md U8: no turn of a sequencer or of an agent ever stops the machine; it
stops only on a code, presented from outside, that the table gives no operation or that has bytes left over; it never
refuses (log 22). -/
def Obligations.StepStopsOnlyOnUnassignedCodes : Prop :=
  ∀ s : State,
    (∀ τ, s.nextSlot = .turn τ → ∃ t, step s = .next t) ∧
    (∀ r, step s ≠ .refused r) ∧
    (∀ f, step s = .fault f ↔
      ∃ c, s.nextSlot = .issue c ∧ f = .unassignedCode c ∧ ¬ (∃ i, decode s.cfg c.fmt c.bytes = .ok (i, [])) ∧
        decode s.cfg c.fmt c.bytes ≠ .error .spfIdle)

/-! ## Reset and boot -/

/-- R45, R270, R271: what reset leaves, as far as the spec gives values; and the host's reset, in any state, puts every
register (those without a reset value as log 3 says) and the trace back (the parameters and the environment are kept,
log 24). -/
def Obligations.ResetInAnyState : Prop :=
  (State.reset.spfPc = .prbTgl ∧ State.reset.sdlPc = .bootProbe ∧ State.reset.indicator = false ∧
    State.reset.busHeld = true ∧ State.reset.armed = false ∧ State.reset.tickPend = false ∧
    State.reset.err = .eNone ∧ State.reset.trace = []) ∧
  ∀ s : State, s.nextSlot = .hostReset →
    step s = .next { State.reset with
      cfg := s.cfg, inbound := s.inbound, plan := s.plan.tail, answers := s.answers
      draw := if s.plan = [] then s.draw + 1 else s.draw }

/-- R272: the six steps of boot, from every state with the values R45 gives (so whatever the registers it leaves
unspecified hold), under any parameters and any answer to the identifier read, to NDC's initial state: indicator off,
radio receiving, timer armed. Every register not named is as it was. -/
def Obligations.BootSequence : Prop :=
  ∀ (s : State) (a : BusAnswer) (more : List BusAnswer) (rest : List Slot),
    s.spfPc = .prbTgl → s.sdlPc = .bootProbe → s.indicator = false → s.busHeld = true → s.armed = false →
    s.tickPend = false → s.err = .eNone → s.trace = [] →
    s.answers = a :: more → s.plan = spfTurns 2 (sdlTurns 4 rest) →
    run 6 s = .next { s with
      answers := more, plan := rest
      spfPc := .idle, sdlPc := .park, busHeld := false, armed := true, tmr := 15, indicator := false
      trace := [.lineToggle, .bus 0x40 [s.cfg.idReg] 1 a.n [a.b0], .radioInit 915000000 s.cfg.paBoost s.cfg.rxCrc,
        .radioReceive [0x4E, 0x65, 0x74, 0x64, 0x75, 0x69, 0x6E, 0x6F, 0x31]] }

/-! ## SPF -/

/-- R120, R121: the probe. `RDID` holds for every answer; count and byte reach no register. -/
def Obligations.ProbeResults : Prop :=
  ∀ s : State,
    (s.spfPc = .prbTgl → exec .tgl s = .next { s with spfPc := .prbId, trace := s.trace ++ [.lineToggle] }) ∧
    (s.spfPc = .prbId → exec .rdid s = .next { s.afterAnswer with
      busHeld := false, spfPc := .idle
      trace := s.trace ++ [.bus 0x40 [s.cfg.idReg] 1 s.answer.n [s.answer.b0]] })

/-- R122, R123, R176, R178, R188: the call and the acceptance of `START` are one step, whichever of the two rows names
it (that the row of `START` runs SDL's half too is log 11); while SPF is not idle it is not accepted and the caller
waits, which the model reads as a step that changes nothing (log 1). -/
def Obligations.CallAndStartAreOneStep : Prop :=
  ∀ s : State,
    (∀ i, i = .startT ∨ i = .callT → s.sdlPc = .callT → s.spfPc = .idle →
      exec i s = .next { s with
        kind := .temp, err := .eNone, pollCnt := 0, busHeld := true, spfPc := .cmd, sdlPc := .waitT
        trace := s.trace ++ [.start .temp] }) ∧
    (∀ i, i = .startH ∨ i = .callH → s.sdlPc = .callH → s.spfPc = .idle →
      exec i s = .next { s with
        kind := .humi, err := .eNone, pollCnt := 0, busHeld := true, spfPc := .cmd, sdlPc := .waitH
        trace := s.trace ++ [.start .humi] }) ∧
    (∀ i, i ∈ [.startT, .startH, .callT, .callH] → s.spfPc ≠ .idle → exec i s = .next s)

/-- R124, R129, R130, R77: `WRCMD` answered with any positive count writes the kind's command byte and goes to poll. -/
def Obligations.WrcmdResult : Prop :=
  ∀ s : State, s.spfPc = .cmd → s.answer.n ≠ 0 →
    exec .wrcmd s = .next { s.afterAnswer with
      spfPc := .poll
      trace := s.trace ++ [.bus 0x40
        [s.cfg.configReg, match s.kind with
          | .temp => s.cfg.cmdMeasureTemp
          | .humi => s.cfg.cmdMeasureHumi] 0 s.answer.n []] }

/-- R125, R131, R104, R134: `RDST` answered with a positive count stores the byte and counts the read; bit 0 clear ends
the loop, whatever the other bits and the poll limit are; bit 0 set goes round again while the limit, if any, is not
reached. -/
def Obligations.RdstResult : Prop :=
  ∀ s : State, s.spfPc = .poll → s.answer.n ≠ 0 →
    (s.answer.b0.getLsbD 0 = false →
      exec .rdst s = .next { s.afterAnswer with
        status := s.answer.b0, pollCnt := s.pollCnt + 1, spfPc := .data
        trace := s.trace ++ [.bus 0x40 [s.cfg.statusReg] 1 s.answer.n [s.answer.b0]] }) ∧
    (s.answer.b0.getLsbD 0 = true → (∀ limit, s.cfg.pollLimit = some limit → s.pollCnt + 1 < limit) →
      exec .rdst s = .next { s.afterAnswer with
        status := s.answer.b0, pollCnt := s.pollCnt + 1, spfPc := .poll
        trace := s.trace ++ [.bus 0x40 [s.cfg.statusReg] 1 s.answer.n [s.answer.b0]] })

/-- R126, R132, R102: `RDDT` answered with a positive count puts the first byte into the high half of `acc`. -/
def Obligations.RddtResult : Prop :=
  ∀ s : State, s.spfPc = .data → s.answer.n ≠ 0 →
    exec .rddt s = .next { s.afterAnswer with
      acc := s.answer.b0 ++ s.answer.b1, spfPc := .conv
      trace := s.trace ++ [.bus 0x40 [s.cfg.dataReg] 2 s.answer.n [s.answer.b0, s.answer.b1]] }

/-- R127, R177, R179, R188: the end of a successful measurement, one step whether it is named by SPF's row or by SDL's
(log 13): the numerator, exactly, is stored, reported and latched; every other register keeps its value. -/
def Obligations.ConvAndWaitResults : Prop :=
  ∀ (s : State) (i : Instr), s.spfPc = .conv →
    (s.sdlPc = .waitT → s.kind = .temp → i = .conv ∨ i = .waitT → ∃ (r : U16) (v : S16),
      (r.toNat = s.acc.toNat / 4 ∧ v.toInt = (r.toNat : Int) - 1600) ∧
      exec i s = .next { s with
        raw := r, val := v, busHeld := false, spfPc := .idle, tVal := v, sdlPc := .callH
        trace := s.trace ++ [.done (.ok .temp v)] }) ∧
    (s.sdlPc = .waitH → s.kind = .humi → i = .conv ∨ i = .waitH → ∃ (r : U16) (v : S16),
      (r.toNat = s.acc.toNat / 16 ∧ v.toInt = (r.toNat : Int) - 384) ∧
      exec i s = .next { s with
        raw := r, val := v, busHeld := false, spfPc := .idle, hVal := v, sdlPc := .diag
        trace := s.trace ++ [.done (.ok .humi v)] })

/-- R128, R231, R232, R233, R234, R240: a failing measurement, while SDL waits for it, ends in one step in the fatal
state: `err` and `fatal_cause` tell the step that failed, `fatal_kind` the measurement, the bus is released, the timer
disarmed; `status` keeps its value when the status read was answered with zero, `acc` when the data read was. -/
def Obligations.FailedMeasurementIsFatal : Prop :=
  ∀ s : State, waiting s →
    (s.spfPc = .cmd → s.answer.n = 0 →
      exec .wrcmd s = .next { s.afterAnswer with
        err := .eCmd, busHeld := false, spfPc := .idle
        fatalKind := s.kind, fatalCause := .eCmd, armed := false, sdlPc := .fatal
        trace := s.trace ++ [.bus 0x40 [s.cfg.configReg, commandOf s.cfg s.kind] 0 0 [],
          .done (.err s.kind .eCmd)] }) ∧
    (s.spfPc = .poll → s.answer.n = 0 →
      exec .rdst s = .next { s.afterAnswer with
        err := .eStatus, pollCnt := s.pollCnt + 1, busHeld := false, spfPc := .idle
        fatalKind := s.kind, fatalCause := .eStatus, armed := false, sdlPc := .fatal
        trace := s.trace ++ [.bus 0x40 [s.cfg.statusReg] 1 0 [s.answer.b0], .done (.err s.kind .eStatus)] }) ∧
    (s.spfPc = .data → s.answer.n = 0 →
      exec .rddt s = .next { s.afterAnswer with
        err := .eData, busHeld := false, spfPc := .idle
        fatalKind := s.kind, fatalCause := .eData, armed := false, sdlPc := .fatal
        trace := s.trace ++ [.bus 0x40 [s.cfg.dataReg] 2 0 [s.answer.b0, s.answer.b1],
          .done (.err s.kind .eData)] }) ∧
    (∀ limit, s.spfPc = .poll → s.answer.n ≠ 0 → s.answer.b0.getLsbD 0 = true →
      s.cfg.pollLimit = some limit → limit ≤ s.pollCnt + 1 →
      exec .rdst s = .next { s.afterAnswer with
        err := .eTimeout, status := s.answer.b0, pollCnt := s.pollCnt + 1, busHeld := false, spfPc := .idle
        fatalKind := s.kind, fatalCause := .eTimeout, armed := false, sdlPc := .fatal
        trace := s.trace ++ [.bus 0x40 [s.cfg.statusReg] 1 s.answer.n [s.answer.b0],
          .done (.err s.kind .eTimeout)] })

/-- R177, R179, R188: SDL's return is the same step as SPF's last micro-operation, so the row of `WAIT` and the row of
that micro-operation agree where a `DONE` is emitted; where SPF goes on measuring, SDL has no step (log 13). -/
def Obligations.WaitIsTheStepThatEndsTheMeasurement : Prop :=
  ∀ s : State, ∀ i, (i = .waitT ∧ s.sdlPc = .waitT ∧ s.kind = .temp) ∨
      (i = .waitH ∧ s.sdlPc = .waitH ∧ s.kind = .humi) →
    (s.spfPc = .conv → exec i s = exec .conv s) ∧
    (s.spfPc = .cmd → exec i s = if s.answer.n = 0 then exec .wrcmd s else .next s) ∧
    (s.spfPc = .data → exec i s = if s.answer.n = 0 then exec .rddt s else .next s) ∧
    (s.spfPc = .poll → exec i s =
      if s.answer.n = 0 ∨ (s.answer.b0.getLsbD 0 = true ∧
          ∃ limit, s.cfg.pollLimit = some limit ∧ limit ≤ s.pollCnt + 1)
      then exec .rdst s else .next s) ∧
    (s.spfPc = .prbTgl ∨ s.spfPc = .prbId ∨ s.spfPc = .idle → exec i s = .next s)

/-- R188, R128, R177, R179, R240: in every state that meets the coupling of R44, for every micro-operation SPF's pc
selects and every answer: either it emits no `DONE`, and then SDL's registers and `err` are as they were; or it emits
exactly one, last, of the kind measured, for which SDL waits, and SDL consumes it in the same step: a numerator, the one
now in `val`, is latched and the sampling cycle goes on, an error ends it in the fatal state with that cause and kind.
In each case the timer's count, the pending tick, the indicator and the message buffer are as they were (R32 to R34,
R36). -/
def Obligations.DoneIsEmittedAndConsumedInOneStep : Prop :=
  ∀ (s t : State) (i : Instr), CouplingInv s → SpfPc.operation s.spfPc = some i → exec i s = .next t →
    ∃ es, t.trace = s.trace ++ es ∧
      (t.tmr = s.tmr ∧ t.tickPend = s.tickPend ∧ t.indicator = s.indicator ∧ t.msg = s.msg ∧
        t.msgLen = s.msgLen) ∧
      (((∀ d, .done d ∉ es) ∧ t.sdlPc = s.sdlPc ∧ t.armed = s.armed ∧ t.tVal = s.tVal ∧ t.hVal = s.hVal ∧
          t.fatalCause = s.fatalCause ∧ t.fatalKind = s.fatalKind ∧ t.err = s.err) ∨
        ∃ pre d, es = pre ++ [.done d] ∧ (∀ d', .done d' ∉ pre) ∧ waiting s ∧ d.kind = s.kind ∧
          t.spfPc = .idle ∧ t.busHeld = false ∧
          match d with
          | .ok .temp v => v = t.val ∧ t.sdlPc = .callH ∧ t.tVal = v ∧ t.hVal = s.hVal ∧ t.armed = s.armed ∧
              t.err = s.err ∧ t.fatalCause = s.fatalCause ∧ t.fatalKind = s.fatalKind
          | .ok .humi v => v = t.val ∧ t.sdlPc = .diag ∧ t.hVal = v ∧ t.tVal = s.tVal ∧ t.armed = s.armed ∧
              t.err = s.err ∧ t.fatalCause = s.fatalCause ∧ t.fatalKind = s.fatalKind
          | .err k e => t.sdlPc = .fatal ∧ t.fatalCause = e ∧ t.fatalKind = k ∧ t.err = e ∧ e ≠ .eNone ∧
              t.armed = false ∧ t.tVal = s.tVal ∧ t.hVal = s.hVal)

/-- R129 to R133: the transactions as rows of their own (log 10): one `BUS` event to device `0x40` with the rule's bytes
and read length, and no register of the block. -/
def Obligations.TransactionRows : Prop :=
  ∀ s : State,
    exec .btCmdt s = .next { s.afterAnswer with
      trace := s.trace ++ [.bus 0x40 [s.cfg.configReg, s.cfg.cmdMeasureTemp] 0 s.answer.n []] } ∧
    exec .btCmdh s = .next { s.afterAnswer with
      trace := s.trace ++ [.bus 0x40 [s.cfg.configReg, s.cfg.cmdMeasureHumi] 0 s.answer.n []] } ∧
    exec .btStat s = .next { s.afterAnswer with
      trace := s.trace ++ [.bus 0x40 [s.cfg.statusReg] 1 s.answer.n [s.answer.b0]] } ∧
    exec .btData s = .next { s.afterAnswer with
      trace := s.trace ++ [.bus 0x40 [s.cfg.dataReg] 2 s.answer.n [s.answer.b0, s.answer.b1]] } ∧
    exec .btId s = .next { s.afterAnswer with
      trace := s.trace ++ [.bus 0x40 [s.cfg.idReg] 1 s.answer.n [s.answer.b0]] }

/-! ## The datapath -/

/-- R150, R151, R152, R102: the two stages, for either kind bit, from every value of the operands. That the rows, issued
alone, write these registers is the model's own choice (log 10). -/
def Obligations.DatapathStages : Prop :=
  ∀ s : State,
    (∀ (k : Kind) (b0 b1 : Byte),
      ∃ a : U16, a.toNat = 256 * b0.toNat + b1.toNat ∧ exec (.acc k b0 b1) s = .next { s with acc := a }) ∧
    (∃ (r : U16) (v : S16), r.toNat = s.acc.toNat / 4 ∧ v.toInt = (r.toNat : Int) - 1600 ∧
      exec (.shroff .temp) s = .next { s with raw := r, val := v }) ∧
    (∃ (r : U16) (v : S16), r.toNat = s.acc.toNat / 16 ∧ v.toInt = (r.toNat : Int) - 384 ∧
      exec (.shroff .humi) s = .next { s with raw := r, val := v })

/-- R159, R153, R155, R156: for all byte pairs the numerator over its divisor is NDC's formula, exactly, over unsigned
bytes. -/
def Obligations.ConversionFormulas : Prop :=
  ∀ b0 b1 : Byte,
    ((convertBytes .temp b0 b1).toInt : ℚ) / 32 =
      ((256 * b0.toNat + b1.toNat) / 4 : ℕ) / 32 - 50 ∧
    ((convertBytes .humi b0 b1).toInt : ℚ) / 16 =
      ((256 * b0.toNat + b1.toNat) / 16 : ℕ) / 16 - 24

/-- R154: the numerators lie in the stated ranges, never overflow, and every value of the ranges occurs. -/
def Obligations.ConverterRanges : Prop :=
  (∀ a : U16, (shr .temp a).toNat ≤ 16383 ∧ (shr .humi a).toNat ≤ 4095) ∧
  (∀ (k : Kind) (a : U16), (num k (shr k a)).toInt = ((shr k a).toNat : Int) - (offsetOf k : Int)) ∧
  (∀ b0 b1 : Byte, tempRange (convertBytes .temp b0 b1) ∧ humiRange (convertBytes .humi b0 b1)) ∧
  (∀ x : S16, tempRange x → ∃ b0 b1, convertBytes .temp b0 b1 = x) ∧
  (∀ x : S16, humiRange x → ∃ b0 b1, convertBytes .humi b0 b1 = x)

/-- R157: the low `SH(kind)` bits of the data have no effect. -/
def Obligations.LowDataBitsAreIgnored : Prop :=
  ∀ (k : Kind) (b0 b1 x : Byte), x.toNat < 2 ^ shiftOf k →
    convertBytes k b0 ((b1 &&& ~~~ (BitVec.ofNat 8 (2 ^ shiftOf k - 1))) ||| x) =
      convertBytes k b0 (b1 &&& ~~~ (BitVec.ofNat 8 (2 ^ shiftOf k - 1)))

/-! ## SDL -/

/-- R170 to R174: the four boot micro-operations, and `PARK`, which takes the pending tick. -/
def Obligations.BootAndParkResults : Prop :=
  ∀ s : State,
    (s.sdlPc = .bootProbe → s.spfPc = .idle → exec .bprobe s = .next { s with sdlPc := .bootRinit }) ∧
    (s.sdlPc = .bootRinit → exec .rinit s = .next { s with
      sdlPc := .bootRrecv, trace := s.trace ++ [.radioInit 915000000 s.cfg.paBoost s.cfg.rxCrc] }) ∧
    (s.sdlPc = .bootRrecv → exec .rrecv s = .next { s with
      sdlPc := .bootArm
      trace := s.trace ++ [.radioReceive [0x4E, 0x65, 0x74, 0x64, 0x75, 0x69, 0x6E, 0x6F, 0x31]] }) ∧
    (s.sdlPc = .bootArm → exec .arm s = .next { s with tmr := 15, armed := true, sdlPc := .park }) ∧
    (s.sdlPc = .park → s.tickPend = true →
      exec .park s = .next { s with tickPend := false, sdlPc := .led1 })

/-- R175, R182, R185, R34, R46: the writes of the indicator, recorded whether or not they change it; `TXDONE` clears it in
every state and changes no other register. -/
def Obligations.IndicatorResults : Prop :=
  ∀ s : State,
    (s.sdlPc = .led1 → exec .ledon1 s = .next { s with
      indicator := true, sdlPc := .callT, trace := s.trace ++ [.ind true] }) ∧
    (s.sdlPc = .led2 → exec .ledon2 s = .next { s with
      indicator := true, sdlPc := .park, trace := s.trace ++ [.ind true] }) ∧
    exec .txdone s = .next { s with indicator := false, trace := s.trace ++ [.txdone, .ind false] }

/-- R180: `DIAG` hands the two numerators and a free timestamp to the diagnostic sink (log 7). -/
def Obligations.DiagResult : Prop :=
  ∀ s : State, s.sdlPc = .diag → ∃ ts : Nat,
    exec .diag s = .next { s with
      sdlPc := .send, draw := s.draw + 1, trace := s.trace ++ [.diagSample ts s.tVal s.hVal] }

/-- R181: `SEND`, for the latched values the converter can produce (10_state.md R35): the buffer holds the message of
R210 byte by byte, `msg_len` its length, the same bytes go to the gateway by value; every other register is as it was.
That the bytes of the buffer past the message read as before is the model's own choice (log 17). -/
def Obligations.SendResult : Prop :=
  ∀ s : State, s.sdlPc = .send → s.msg.wf = true → tempRange s.tVal → humiRange s.hVal →
    ∃ (mem : Memory) (len : BitVec 4),
      exec .send s = .next { s with
        msg := mem, msgLen := len, sdlPc := .led2
        trace := s.trace ++ [.radioSend [0x4C, 0x6F, 0x52, 0x61, 0x49, 0x6F, 0x54, 0x31]
          (formatMessage s.cfg s.tVal s.hVal)] } ∧
      mem.wf = true ∧
      len.toNat = (formatMessage s.cfg s.tVal s.hVal).length ∧
      (∀ a (h : a < (formatMessage s.cfg s.tVal s.hVal).length),
        mem.read a = (formatMessage s.cfg s.tVal s.hVal)[a]) ∧
      (∀ a, (formatMessage s.cfg s.tVal s.hVal).length ≤ a → mem.read a = s.msg.read a)

/-- R183: in `L_FATAL` SDL's operation is `HALT`, and it changes nothing (log 1). -/
def Obligations.HaltResult : Prop :=
  ∀ s : State, SdlPc.operation .fatal = .halt ∧ exec .halt s = .next s

/-- The model's reading of "not enabled" (log 1; 95_test_vectors.md V5.1, V5.6): an operation whose enabling condition
does not hold changes nothing. -/
def Obligations.OperationsNotEnabledChangeNothing : Prop :=
  ∀ s : State,
    (s.spfPc ≠ .prbTgl → exec .tgl s = .next s) ∧
    (s.spfPc ≠ .prbId → exec .rdid s = .next s) ∧
    (s.spfPc ≠ .cmd → exec .wrcmd s = .next s) ∧
    (s.spfPc ≠ .poll → exec .rdst s = .next s) ∧
    (s.spfPc ≠ .data → exec .rddt s = .next s) ∧
    (s.spfPc ≠ .conv → exec .conv s = .next s) ∧
    (¬ (s.sdlPc = .callT ∧ s.spfPc = .idle) → exec .startT s = .next s ∧ exec .callT s = .next s) ∧
    (¬ (s.sdlPc = .callH ∧ s.spfPc = .idle) → exec .startH s = .next s ∧ exec .callH s = .next s) ∧
    (s.sdlPc ≠ .waitT → exec .waitT s = .next s) ∧
    (s.sdlPc ≠ .waitH → exec .waitH s = .next s) ∧
    (¬ (s.sdlPc = .bootProbe ∧ s.spfPc = .idle) → exec .bprobe s = .next s) ∧
    (s.sdlPc ≠ .bootRinit → exec .rinit s = .next s) ∧
    (s.sdlPc ≠ .bootRrecv → exec .rrecv s = .next s) ∧
    (s.sdlPc ≠ .bootArm → exec .arm s = .next s) ∧
    (¬ (s.sdlPc = .park ∧ s.tickPend = true) → exec .park s = .next s) ∧
    (s.sdlPc ≠ .led1 → exec .ledon1 s = .next s) ∧
    (s.sdlPc ≠ .diag → exec .diag s = .next s) ∧
    (s.sdlPc ≠ .send → exec .send s = .next s) ∧
    (s.sdlPc ≠ .led2 → exec .ledon2 s = .next s) ∧
    (s.armed = false → exec .tick s = .next s)

/-! ## Events -/

/-- R184, R187: `TU` counts down while armed; at 1 it reloads 300 and performs `TICK` in the same step; unarmed it
changes no register. `TICK` under both values of `TICK_OVERRUN`. -/
def Obligations.TimerResults : Prop :=
  ∀ s : State,
    (s.armed = false → exec .tu s = .next { s with trace := s.trace ++ [.tu] }) ∧
    (s.armed = true → s.tmr = 1 →
      exec .tu s = .next { s with
        tmr := 300
        tickPend := if s.cfg.tickOverrun = .pend ∨ s.sdlPc = .park then true else s.tickPend
        trace := s.trace ++ [.tu, .tick] }) ∧
    (s.armed = true → 2 ≤ s.tmr.toNat → ∃ x : BitVec 9, x.toNat = s.tmr.toNat - 1 ∧
      exec .tu s = .next { s with tmr := x, trace := s.trace ++ [.tu] }) ∧
    (s.armed = true →
      exec .tick s = .next { s with
        tickPend := if s.cfg.tickOverrun = .pend ∨ s.sdlPc = .park then true else s.tickPend
        trace := s.trace ++ [.tick] })

/-- R186, R235: `RXDATA` in every state: no register changes; the line carries the packet as it came, or tells of a
decode error when either byte sequence is no text. -/
def Obligations.RxdataResult : Prop :=
  ∀ s : State,
    (utf8Valid s.cfg.utf8Valid s.inbound.address = true → utf8Valid s.cfg.utf8Valid s.inbound.payload = true →
      ∃ ts : Nat, exec .rxdata s = .next { s with
        draw := s.draw + 1
        trace := s.trace ++ [.rxdata s.inbound,
          .diagRx ts s.inbound.address s.inbound.snr s.inbound.packetRssi s.inbound.ambientRssi
            s.inbound.payload.length s.inbound.payload] }) ∧
    (utf8Valid s.cfg.utf8Valid s.inbound.address = false ∨ utf8Valid s.cfg.utf8Valid s.inbound.payload = false →
      exec .rxdata s = .next { s with
        draw := s.draw + 1, trace := s.trace ++ [.rxdata s.inbound, .diagDecodeError] })

/-- 93_implementation_defined.md G4 (log 6): under the default text test every sequence of bytes below `80` is text, and
none that holds a byte `C0`, `C1` or `F5` to `FF` is. -/
def Obligations.DefaultTextTest : Prop :=
  (∀ bs : Bytes, (∀ b ∈ bs, b.toNat < 0x80) → utf8Valid .wellFormed bs = true) ∧
  (∀ (bs : Bytes) (b : Byte), b ∈ bs → b = 0xC0 ∨ b = 0xC1 ∨ 0xF5 ≤ b.toNat →
    utf8Valid .wellFormed bs = false)

/-! ## The formatter -/

/-- R213, R214: round to nearest, a tie away from zero or to even; and the sign. -/
def Obligations.RoundingAndSign : Prop :=
  (∀ (tie : FmtTie) (a : Nat),
    (a % 16 < 8 → roundQ tie a = a / 16) ∧ (8 < a % 16 → roundQ tie a = a / 16 + 1) ∧
    (a % 16 = 8 → roundQ .halfAway a = a / 16 + 1 ∧ roundQ .halfEven a = a / 16 + a / 16 % 2 ∧
      roundQ .halfEven a % 2 = 0) ∧
    16 * roundQ tie a ≤ a + 8 ∧ a ≤ 16 * roundQ tie a + 8) ∧
  ∀ (nz : FmtNegzero) (x : Int) (q : Nat),
    (0 ≤ x → signOf nz x q = []) ∧ (x < 0 → 0 < q → signOf nz x q = [0x2D]) ∧
    (x < 0 → signOf .plain x 0 = [] ∧ signOf .signed x 0 = [0x2D])

/-- R215: the text of a number is made of decimal digits, most significant first, has no leading zero but in the single
`"0"`, and reads as the number; the separator is the byte `2E`. -/
def Obligations.DecIsTheDecimalNumeral : Prop :=
  (∀ d, d < 10 → (digit d).toNat = 0x30 + d) ∧ dec 0 = [0x30] ∧
  ∀ n : Nat,
    (∀ b ∈ dec n, 0x30 ≤ b.toNat ∧ b.toNat ≤ 0x39) ∧
    (dec n).foldl (fun v b => 10 * v + (b.toNat - 0x30)) 0 = n ∧
    (0 < n → ∃ b bs, dec n = b :: bs ∧ b ≠ 0x30) ∧
    tenths n = dec (n / 10) ++ [0x2E] ++ [digit (n % 10)]

/-- R105, R210 to R212: every message, under every parameter and for all values, is made of `"t "`, the sign, integer
part, point and one digit of the rounded number of tenths of the temperature, `",H "`, the sign and the rounded
humidity; the rounded numbers are the nearest ones, there is no minus on a value that is not negative and one on a
negative value that does not round to zero; over the converter's ranges each integer part has at most three digits. -/
def Obligations.MessageShape : Prop :=
  ∀ (p : Params) (t h : S16),
    ∃ (st sh : Bytes) (ti hi d : Nat),
      formatMessage p t h =
        [0x74, 0x20] ++ (st ++ dec ti ++ [0x2E] ++ [digit d]) ++ [0x2C, 0x48, 0x20] ++ (sh ++ dec hi) ∧
      (st = [] ∨ st = [0x2D]) ∧ (sh = [] ∨ sh = [0x2D]) ∧
      d < 10 ∧ 10 * ti + d = roundQ p.fmtTie (t.toInt.natAbs * 5) ∧ hi = roundQ p.fmtTie h.toInt.natAbs ∧
      st = signOf p.fmtNegzero t.toInt (10 * ti + d) ∧ sh = signOf p.fmtNegzero h.toInt hi ∧
      (16 * (10 * ti + d) ≤ t.toInt.natAbs * 5 + 8 ∧ t.toInt.natAbs * 5 ≤ 16 * (10 * ti + d) + 8) ∧
      (16 * hi ≤ h.toInt.natAbs + 8 ∧ h.toInt.natAbs ≤ 16 * hi + 8) ∧
      (0 ≤ t.toInt → st = []) ∧ (t.toInt < 0 → 0 < 10 * ti + d → st = [0x2D]) ∧
      (0 ≤ h.toInt → sh = []) ∧ (h.toInt < 0 → 0 < hi → sh = [0x2D]) ∧
      (tempRange t → ti < 1000) ∧ (humiRange h → hi < 1000)

/-- R216: lengths over both ranges, under every parameter. -/
def Obligations.MessageLengths : Prop :=
  ∀ (p : Params) (t h : S16), tempRange t → humiRange h →
    (3 ≤ (fmtT p t).length ∧ (fmtT p t).length ≤ 5) ∧
    (1 ≤ (fmtH p h).length ∧ (fmtH p h).length ≤ 3) ∧
    (9 ≤ (formatMessage p t h).length ∧ (formatMessage p t h).length ≤ 13)

/-- R217: the diagnostic line shows the temperature as the message does and the humidity with one decimal as well. -/
def Obligations.DiagnosticRendering : Prop :=
  ∀ (p : Params) (h : S16), ∃ q : Nat, q = roundQ p.fmtTie (h.toInt.natAbs * 10) ∧
    fmtH1 p h = signOf p.fmtNegzero h.toInt q ++ dec (q / 10) ++ [0x2E] ++ [digit (q % 10)] ∧
    16 * q ≤ h.toInt.natAbs * 10 + 8 ∧ h.toInt.natAbs * 10 ≤ 16 * q + 8

/-! ## Frames over all operations -/

/-- R21 to R38: each register, the two program counters and the message buffer among them, is written by its own
operations and by no other. A micro-operation of SPF that ends a measurement is one step with SDL's half (R188), so each
stands with what the other writes, and `START` stands beside `CALL` (logs 11, 13); the rows `ACC` and `SHROFF` write
what `RDDT` and `CONV` write through them (log 10). -/
def Obligations.RegistersAreWrittenOnlyByTheirOperations : Prop :=
  ∀ (i : Instr) (s t : State), exec i s = .next t →
    (t.spfPc ≠ s.spfPc → i ∈ [.startT, .startH, .callT, .callH, .tgl, .rdid, .wrcmd, .rdst, .rddt, .conv,
      .waitT, .waitH]) ∧
    (t.sdlPc ≠ s.sdlPc → i ∈ [.startT, .startH, .callT, .callH, .wrcmd, .rdst, .rddt, .conv, .waitT, .waitH,
      .bprobe, .rinit, .rrecv, .arm, .park, .ledon1, .diag, .send, .ledon2]) ∧
    (t.msg ≠ s.msg ∨ t.msgLen ≠ s.msgLen → i = .send) ∧
    (t.kind ≠ s.kind → i ∈ [.startT, .startH, .callT, .callH]) ∧
    (t.status ≠ s.status → i ∈ [.rdst, .waitT, .waitH]) ∧
    (t.acc ≠ s.acc → i = .rddt ∨ ∃ k b0 b1, i = .acc k b0 b1) ∧
    (t.raw ≠ s.raw ∨ t.val ≠ s.val → i ∈ [.conv, .waitT, .waitH] ∨ ∃ k, i = .shroff k) ∧
    (t.err ≠ s.err → i ∈ [.startT, .startH, .callT, .callH, .wrcmd, .rdst, .rddt, .waitT, .waitH]) ∧
    (t.busHeld ≠ s.busHeld → i ∈ [.startT, .startH, .callT, .callH, .rdid, .wrcmd, .rdst, .rddt, .conv,
      .waitT, .waitH]) ∧
    (t.pollCnt ≠ s.pollCnt → i ∈ [.startT, .startH, .callT, .callH, .rdst, .waitT, .waitH]) ∧
    (t.armed ≠ s.armed → i ∈ [.arm, .wrcmd, .rdst, .rddt, .waitT, .waitH]) ∧
    (t.tmr ≠ s.tmr → i ∈ [.arm, .tu]) ∧
    (t.tickPend ≠ s.tickPend → i ∈ [.park, .tick, .tu]) ∧
    (t.indicator ≠ s.indicator → i ∈ [.ledon1, .ledon2, .txdone]) ∧
    (t.tVal ≠ s.tVal → i ∈ [.conv, .waitT]) ∧
    (t.hVal ≠ s.hVal → i ∈ [.conv, .waitH]) ∧
    (t.fatalCause ≠ s.fatalCause ∨ t.fatalKind ≠ s.fatalKind → i ∈ [.wrcmd, .rdst, .rddt, .waitT, .waitH]) ∧
    (t.answers ≠ s.answers → usesBus i = true) ∧
    t.cfg = s.cfg ∧ t.inbound = s.inbound ∧ t.plan = s.plan

/-- 20_memory.md R60: `SEND` alone writes the message buffer, and only its first 13 bytes; for every other operation
every byte reads as before, and `msg_len` keeps its value. That `SEND` keeps the bytes past the end of the message, and
cuts at 13 in states no run reaches, is the model's own choice (log 17). -/
def Obligations.MessageBufferFrame : Prop :=
  ∀ (i : Instr) (s t : State), s.msg.wf = true → exec i s = .next t →
    (i ≠ .send → t.msgLen = s.msgLen ∧ ∀ a, t.msg.read a = s.msg.read a) ∧
    (i = .send → ∀ a, min (formatMessage s.cfg s.tVal s.hVal).length 13 ≤ a → t.msg.read a = s.msg.read a)

/-! ## Invariants -/

/-- The reset state meets the invariant of the machine. -/
def Obligations.ResetMeetsTheInvariant : Prop := Inv State.reset ∧ HandshakeInv State.reset

/-- Every step, from every state that meets it, keeps the invariant of the machine: the bus handle (R28), the coupling
(R44), the timer (R184, R187), the errors (R101, R234, R240), the poll bound (R134), the ranges of the latched values
(R154), the message buffer (R216). -/
def Obligations.StepKeepsTheInvariant : Prop :=
  ∀ s t : State, Inv s → step s = .next t → Inv t

/-- R28: the bus is held exactly while SPF is not idle: right after reset, and after every step from such a state. -/
def Obligations.StepKeepsTheBusHandle : Prop :=
  HandleInv State.reset ∧ ∀ s t : State, HandleInv s → step s = .next t → HandleInv t

/-- R44: the coupling of the sequencers holds right after reset and is kept by itself; and it gives the rule's (c). -/
def Obligations.StepKeepsTheCoupling : Prop :=
  CouplingInv State.reset ∧
  (∀ s t : State, CouplingInv s → step s = .next t → CouplingInv t) ∧
  (∀ s : State, CouplingInv s → s.sdlPc ≠ .bootProbe → s.sdlPc ≠ .waitT → s.sdlPc ≠ .waitH → s.spfPc = .idle)

/-- R97: exactly one `DONE` answers each accepted `START`, but for the one in progress. -/
def Obligations.EveryStartIsAnsweredOnce : Prop :=
  ∀ s t : State, HandshakeInv s → step s = .next t → HandshakeInv t

/-- R67, R94, R111, R13: every `BUS` event of a trace is one of the five transactions, to device `0x40`, answered with
as many bytes as it asked for. -/
def Obligations.EveryBusEventIsATransaction : Prop :=
  ∀ s t : State, (∀ e ∈ s.trace, busEventOk s.cfg e) → step s = .next t → ∀ e ∈ t.trace, busEventOk t.cfg e

/-- R181, R216: every message handed to the radio goes to the gateway and has 9 to 13 bytes. -/
def Obligations.EverySentMessageIsBounded : Prop :=
  ∀ s t : State, RangeInv s → (∀ e ∈ s.trace, sendEventOk e) → step s = .next t → ∀ e ∈ t.trace, sendEventOk e

/-- R183, R242, R244: no turn leaves the fatal state, its record is kept, and nothing goes out but notifications'
answers. -/
def Obligations.FatalStateIsAbsorbing : Prop :=
  ∀ (s t : State) (τ : Turn), CouplingInv s → TimerInv s → s.sdlPc = .fatal → s.nextSlot = .turn τ →
    step s = .next t →
    t.sdlPc = .fatal ∧ t.armed = false ∧ t.fatalCause = s.fatalCause ∧ t.fatalKind = s.fatalKind ∧
    t.err = s.err ∧ t.tickPend = s.tickPend ∧
    ∃ es, t.trace = s.trace ++ es ∧ ∀ e ∈ es, afterFatalOk e

/-- R61: on a turn, the bus is used by SPF's turn or by SDL's return that ends the measurement, never by an event. -/
def Obligations.EventsNeverTouchTheBus : Prop :=
  ∀ (s t : State) (τ : Turn), s.nextSlot = .turn τ → τ ≠ .spf → τ ≠ .sdl → step s = .next t →
    t.answers = s.answers ∧ t.spfPc = s.spfPc ∧ t.sdlPc = s.sdlPc ∧
    ∃ es, t.trace = s.trace ++ es ∧ ∀ e ∈ es, (∀ dev w rlen n r, e ≠ .bus dev w rlen n r) ∧
      ∀ dst payload, e ≠ .radioSend dst payload

/-- R38, R43: no step writes a parameter; and but for the host's reset the trace only grows. -/
def Obligations.ParametersStayAndTheTraceGrows : Prop :=
  ∀ s t : State, step s = .next t →
    t.cfg = s.cfg ∧ (s.nextSlot ≠ .hostReset → ∃ es, t.trace = s.trace ++ es)

/-- R3, R186: what comes in by radio changes nothing that the timer path reads. Two states that differ only in inbound
contents step to two states that differ only in them. -/
def Obligations.InboundDataNeverFeedsBack : Prop :=
  ∀ s s' t : State, sameButInbound s s' → step s = .next t → ∃ t', step s' = .next t' ∧ sameButInbound t t'

/-! ## Runs -/

/-- R135, R125: after the command write, `N` busy answers and one clear answer make exactly `N + 1` status reads and
then one data read, within the poll limit if there is one. -/
def Obligations.PollLoopReadsOnceMoreThanBusy : Prop :=
  ∀ (s : State) (as : List BusAnswer) (c d : BusAnswer) (more : List BusAnswer) (rest : List Slot),
    s.spfPc = .poll → (∀ a ∈ as, busyAnswer a) → clearAnswer c → d.n ≠ 0 →
    belowLimit s.cfg.pollLimit (s.pollCnt + as.length) →
    s.answers = as ++ c :: d :: more → s.plan = spfTurns (as.length + 2) rest →
    run (as.length + 2) s = .next { s with
      spfPc := .conv, status := c.b0, acc := d.b0 ++ d.b1, pollCnt := s.pollCnt + as.length + 1
      answers := more, plan := rest
      trace := s.trace ++ statusReads s.cfg (as ++ [c]) ++ [.bus 0x40 [s.cfg.dataReg] 2 d.n [d.b0, d.b1]] }

/-- R274: with no poll limit a sensor that stays busy keeps SPF in the loop for as long as it does: no `DONE`, no error,
nothing but status reads. -/
def Obligations.BusySensorHangsThePollLoop : Prop :=
  ∀ (s : State) (as : List BusAnswer) (more : List BusAnswer) (rest : List Slot),
    s.spfPc = .poll → s.cfg.pollLimit = none → (∀ a ∈ as, busyAnswer a) →
    s.answers = as ++ more → s.plan = spfTurns as.length rest →
    run as.length s = .next { s with
      status := (as.getLast?.map BusAnswer.b0).getD s.status, pollCnt := s.pollCnt + as.length
      answers := more, plan := rest, trace := s.trace ++ statusReads s.cfg as }

/-- R134, R136, R234: with `POLL_LIMIT = L`, `L` busy answers end the cycle at the `L`-th status read with `E_TIMEOUT`,
and sampling with it. -/
def Obligations.PollLimitEndsTheCycle : Prop :=
  ∀ (s : State) (as : List BusAnswer) (more : List BusAnswer) (rest : List Slot) (limit : Nat) (last : BusAnswer),
    s.spfPc = .poll → waiting s → s.pollCnt = 0 → s.cfg.pollLimit = some limit → limit = as.length + 1 →
    (∀ a ∈ as, busyAnswer a) → busyAnswer last →
    s.answers = as ++ last :: more → s.plan = spfTurns limit rest →
    run limit s = .next { s with
      spfPc := .idle, busHeld := false, err := .eTimeout, status := last.b0, pollCnt := limit
      fatalKind := s.kind, fatalCause := .eTimeout, armed := false, sdlPc := .fatal
      answers := more, plan := rest
      trace := s.trace ++ statusReads s.cfg (as ++ [last]) ++ [.done (.err s.kind .eTimeout)] }

/-- R136, R137, R159: the successful shape of a measurement cycle, of either kind, from its accepted `START`: command
write, status reads, data read, and the conversion of the two bytes, reported once. -/
def Obligations.SuccessfulCycle : Prop :=
  ∀ (s : State) (c : BusAnswer) (as : List BusAnswer) (z d : BusAnswer) (more : List BusAnswer) (rest : List Slot),
    s.spfPc = .cmd → waiting s → s.pollCnt = 0 →
    c.n ≠ 0 → (∀ a ∈ as, busyAnswer a) → clearAnswer z → d.n ≠ 0 →
    belowLimit s.cfg.pollLimit as.length →
    s.answers = c :: as ++ z :: d :: more → s.plan = spfTurns (as.length + 4) rest →
    ∃ t, run (as.length + 4) s = .next t ∧
      t.spfPc = .idle ∧ t.busHeld = false ∧ t.err = s.err ∧ t.val = convertBytes s.kind d.b0 d.b1 ∧
      (s.kind = .temp → t.sdlPc = .callH ∧ t.tVal = convertBytes .temp d.b0 d.b1 ∧ t.hVal = s.hVal) ∧
      (s.kind = .humi → t.sdlPc = .diag ∧ t.hVal = convertBytes .humi d.b0 d.b1 ∧ t.tVal = s.tVal) ∧
      t.trace = s.trace ++ cycleEvents s.cfg s.kind c (as ++ [z]) d ++
        [.done (.ok s.kind (convertBytes s.kind d.b0 d.b1))]

/-- R30, R137: no hidden state drift. Two cycles of the same kind under the same parameters, given the same answers,
add the same events (bus traffic and `DONE`), whatever every other register held, step for step. -/
def Obligations.CycleDependsOnlyOnItsAnswers : Prop :=
  ∀ (n : Nat) (s s' t t' : State) (rest rest' : List Slot),
    s.spfPc = .cmd → s'.spfPc = .cmd → s.kind = s'.kind → s.cfg = s'.cfg → s.pollCnt = 0 → s'.pollCnt = 0 →
    s.sdlPc = s'.sdlPc → s.answers = s'.answers → n ≤ s.answers.length →
    s.plan = spfTurns n rest → s'.plan = spfTurns n rest' →
    run n s = .next t → run n s' = .next t' →
    t.spfPc = t'.spfPc ∧ t.sdlPc = t'.sdlPc ∧
      ∃ es, t.trace = s.trace ++ es ∧ t'.trace = s'.trace ++ es

/-- R187, R184: counted from `ARM`, the first tick is raised by the 15th pulse and then one by every 300th after it. -/
def Obligations.TimerFiresAfterDelayThenEveryPeriod : Prop :=
  ∀ (s : State) (n : Nat) (rest : List Slot), s.armed = true → s.tmr = 15 → s.plan = tuTurns n rest →
    ∃ t, run n s = .next t ∧
      ticks t.trace = ticks s.trace + (n + 285) / 300 ∧
      t.armed = true ∧ 1 ≤ t.tmr.toNat ∧ t.tmr.toNat ≤ 300 ∧ (t.tmr.toNat + n) % 300 = 15

/-- R189: a sampling cycle that does not fail, from the pending tick to the next park: the indicator on, the temperature
cycle, the humidity cycle, the diagnostic line, one message to the gateway with the formatted readings, the indicator
on. -/
def Obligations.SamplingCycleEndToEnd : Prop :=
  ∀ (s : State) (c d c' d' z z' : BusAnswer) (as as' : List BusAnswer) (more : List BusAnswer) (rest : List Slot),
    s.sdlPc = .park → s.spfPc = .idle → s.tickPend = true →
    c.n ≠ 0 → (∀ a ∈ as, busyAnswer a) → clearAnswer z → d.n ≠ 0 → belowLimit s.cfg.pollLimit as.length →
    c'.n ≠ 0 → (∀ a ∈ as', busyAnswer a) → clearAnswer z' → d'.n ≠ 0 → belowLimit s.cfg.pollLimit as'.length →
    s.answers = (c :: as ++ [z, d]) ++ (c' :: as' ++ [z', d']) ++ more →
    s.plan = sdlTurns 3 (spfTurns (as.length + 4) (sdlTurns 1 (spfTurns (as'.length + 4) (sdlTurns 3 rest)))) →
    ∃ (ts : Nat) (t : State),
      run (as.length + as'.length + 15) s = .next t ∧
      t.sdlPc = .park ∧ t.spfPc = .idle ∧ t.busHeld = false ∧ t.tickPend = false ∧ t.indicator = true ∧
      t.err = .eNone ∧ t.armed = s.armed ∧ t.tmr = s.tmr ∧
      t.tVal = convertBytes .temp d.b0 d.b1 ∧ t.hVal = convertBytes .humi d'.b0 d'.b1 ∧
      t.trace = s.trace ++ [.ind true, .start .temp] ++ cycleEvents s.cfg .temp c (as ++ [z]) d ++
        [.done (.ok .temp (convertBytes .temp d.b0 d.b1)), .start .humi] ++
        cycleEvents s.cfg .humi c' (as' ++ [z']) d' ++
        [.done (.ok .humi (convertBytes .humi d'.b0 d'.b1)),
         .diagSample ts (convertBytes .temp d.b0 d.b1) (convertBytes .humi d'.b0 d'.b1),
         .radioSend [0x4C, 0x6F, 0x52, 0x61, 0x49, 0x6F, 0x54, 0x31]
           (formatMessage s.cfg (convertBytes .temp d.b0 d.b1) (convertBytes .humi d'.b0 d'.b1)),
         .ind true]

/-- R275: the indicator race. From `SEND` on, the transmit-complete after the second write leaves the indicator off;
the one before it leaves it on. -/
def Obligations.IndicatorRace : Prop :=
  ∀ (s : State) (rest : List Slot), s.sdlPc = .send →
    (s.plan = .turn .sdl :: .turn .sdl :: .turn .txdone :: rest →
      ∃ t, run 3 s = .next t ∧ t.sdlPc = .park ∧ t.indicator = false) ∧
    (s.plan = .turn .sdl :: .turn .txdone :: .turn .sdl :: rest →
      ∃ t, run 3 s = .next t ∧ t.sdlPc = .park ∧ t.indicator = true)

end
end

