-- ==== Sys2Proof/Laws/State.lean ====
section
/-! SUPPORT. One lemma per field per named update of State, true by `rfl`: no proof unfolds a record update. -/

namespace Sys2Proof.Machine

/-! ## `emit` -/

@[simp] theorem State.emit_spfPc (s : State) (e : Event) : (s.emit e).spfPc = s.spfPc := rfl
@[simp] theorem State.emit_kind (s : State) (e : Event) : (s.emit e).kind = s.kind := rfl
@[simp] theorem State.emit_status (s : State) (e : Event) : (s.emit e).status = s.status := rfl
@[simp] theorem State.emit_acc (s : State) (e : Event) : (s.emit e).acc = s.acc := rfl
@[simp] theorem State.emit_raw (s : State) (e : Event) : (s.emit e).raw = s.raw := rfl
@[simp] theorem State.emit_val (s : State) (e : Event) : (s.emit e).val = s.val := rfl
@[simp] theorem State.emit_err (s : State) (e : Event) : (s.emit e).err = s.err := rfl
@[simp] theorem State.emit_busHeld (s : State) (e : Event) : (s.emit e).busHeld = s.busHeld := rfl
@[simp] theorem State.emit_pollCnt (s : State) (e : Event) : (s.emit e).pollCnt = s.pollCnt := rfl
@[simp] theorem State.emit_sdlPc (s : State) (e : Event) : (s.emit e).sdlPc = s.sdlPc := rfl
@[simp] theorem State.emit_armed (s : State) (e : Event) : (s.emit e).armed = s.armed := rfl
@[simp] theorem State.emit_tmr (s : State) (e : Event) : (s.emit e).tmr = s.tmr := rfl
@[simp] theorem State.emit_tickPend (s : State) (e : Event) : (s.emit e).tickPend = s.tickPend := rfl
@[simp] theorem State.emit_indicator (s : State) (e : Event) : (s.emit e).indicator = s.indicator := rfl
@[simp] theorem State.emit_tVal (s : State) (e : Event) : (s.emit e).tVal = s.tVal := rfl
@[simp] theorem State.emit_hVal (s : State) (e : Event) : (s.emit e).hVal = s.hVal := rfl
@[simp] theorem State.emit_msg (s : State) (e : Event) : (s.emit e).msg = s.msg := rfl
@[simp] theorem State.emit_msgLen (s : State) (e : Event) : (s.emit e).msgLen = s.msgLen := rfl
@[simp] theorem State.emit_fatalCause (s : State) (e : Event) : (s.emit e).fatalCause = s.fatalCause := rfl
@[simp] theorem State.emit_fatalKind (s : State) (e : Event) : (s.emit e).fatalKind = s.fatalKind := rfl
@[simp] theorem State.emit_cfg (s : State) (e : Event) : (s.emit e).cfg = s.cfg := rfl
@[simp] theorem State.emit_inbound (s : State) (e : Event) : (s.emit e).inbound = s.inbound := rfl
@[simp] theorem State.emit_trace (s : State) (e : Event) : (s.emit e).trace = s.trace ++ [e] := rfl
@[simp] theorem State.emit_plan (s : State) (e : Event) : (s.emit e).plan = s.plan := rfl
@[simp] theorem State.emit_answers (s : State) (e : Event) : (s.emit e).answers = s.answers := rfl
@[simp] theorem State.emit_draw (s : State) (e : Event) : (s.emit e).draw = s.draw := rfl

/-! ## A timestamp draw -/

@[simp] theorem State.afterTimestamp_spfPc (s : State) : (s.afterTimestamp).spfPc = s.spfPc := rfl
@[simp] theorem State.afterTimestamp_kind (s : State) : (s.afterTimestamp).kind = s.kind := rfl
@[simp] theorem State.afterTimestamp_status (s : State) : (s.afterTimestamp).status = s.status := rfl
@[simp] theorem State.afterTimestamp_acc (s : State) : (s.afterTimestamp).acc = s.acc := rfl
@[simp] theorem State.afterTimestamp_raw (s : State) : (s.afterTimestamp).raw = s.raw := rfl
@[simp] theorem State.afterTimestamp_val (s : State) : (s.afterTimestamp).val = s.val := rfl
@[simp] theorem State.afterTimestamp_err (s : State) : (s.afterTimestamp).err = s.err := rfl
@[simp] theorem State.afterTimestamp_busHeld (s : State) : (s.afterTimestamp).busHeld = s.busHeld := rfl
@[simp] theorem State.afterTimestamp_pollCnt (s : State) : (s.afterTimestamp).pollCnt = s.pollCnt := rfl
@[simp] theorem State.afterTimestamp_sdlPc (s : State) : (s.afterTimestamp).sdlPc = s.sdlPc := rfl
@[simp] theorem State.afterTimestamp_armed (s : State) : (s.afterTimestamp).armed = s.armed := rfl
@[simp] theorem State.afterTimestamp_tmr (s : State) : (s.afterTimestamp).tmr = s.tmr := rfl
@[simp] theorem State.afterTimestamp_tickPend (s : State) : (s.afterTimestamp).tickPend = s.tickPend := rfl
@[simp] theorem State.afterTimestamp_indicator (s : State) : (s.afterTimestamp).indicator = s.indicator := rfl
@[simp] theorem State.afterTimestamp_tVal (s : State) : (s.afterTimestamp).tVal = s.tVal := rfl
@[simp] theorem State.afterTimestamp_hVal (s : State) : (s.afterTimestamp).hVal = s.hVal := rfl
@[simp] theorem State.afterTimestamp_msg (s : State) : (s.afterTimestamp).msg = s.msg := rfl
@[simp] theorem State.afterTimestamp_msgLen (s : State) : (s.afterTimestamp).msgLen = s.msgLen := rfl
@[simp] theorem State.afterTimestamp_fatalCause (s : State) : (s.afterTimestamp).fatalCause = s.fatalCause := rfl
@[simp] theorem State.afterTimestamp_fatalKind (s : State) : (s.afterTimestamp).fatalKind = s.fatalKind := rfl
@[simp] theorem State.afterTimestamp_cfg (s : State) : (s.afterTimestamp).cfg = s.cfg := rfl
@[simp] theorem State.afterTimestamp_inbound (s : State) : (s.afterTimestamp).inbound = s.inbound := rfl
@[simp] theorem State.afterTimestamp_trace (s : State) : (s.afterTimestamp).trace = s.trace := rfl
@[simp] theorem State.afterTimestamp_plan (s : State) : (s.afterTimestamp).plan = s.plan := rfl
@[simp] theorem State.afterTimestamp_answers (s : State) : (s.afterTimestamp).answers = s.answers := rfl
@[simp] theorem State.afterTimestamp_draw (s : State) : (s.afterTimestamp).draw = s.draw + 1 := rfl

/-! ## An answer taken -/

@[simp] theorem State.afterAnswer_spfPc (s : State) : (s.afterAnswer).spfPc = s.spfPc := rfl
@[simp] theorem State.afterAnswer_kind (s : State) : (s.afterAnswer).kind = s.kind := rfl
@[simp] theorem State.afterAnswer_status (s : State) : (s.afterAnswer).status = s.status := rfl
@[simp] theorem State.afterAnswer_acc (s : State) : (s.afterAnswer).acc = s.acc := rfl
@[simp] theorem State.afterAnswer_raw (s : State) : (s.afterAnswer).raw = s.raw := rfl
@[simp] theorem State.afterAnswer_val (s : State) : (s.afterAnswer).val = s.val := rfl
@[simp] theorem State.afterAnswer_err (s : State) : (s.afterAnswer).err = s.err := rfl
@[simp] theorem State.afterAnswer_busHeld (s : State) : (s.afterAnswer).busHeld = s.busHeld := rfl
@[simp] theorem State.afterAnswer_pollCnt (s : State) : (s.afterAnswer).pollCnt = s.pollCnt := rfl
@[simp] theorem State.afterAnswer_sdlPc (s : State) : (s.afterAnswer).sdlPc = s.sdlPc := rfl
@[simp] theorem State.afterAnswer_armed (s : State) : (s.afterAnswer).armed = s.armed := rfl
@[simp] theorem State.afterAnswer_tmr (s : State) : (s.afterAnswer).tmr = s.tmr := rfl
@[simp] theorem State.afterAnswer_tickPend (s : State) : (s.afterAnswer).tickPend = s.tickPend := rfl
@[simp] theorem State.afterAnswer_indicator (s : State) : (s.afterAnswer).indicator = s.indicator := rfl
@[simp] theorem State.afterAnswer_tVal (s : State) : (s.afterAnswer).tVal = s.tVal := rfl
@[simp] theorem State.afterAnswer_hVal (s : State) : (s.afterAnswer).hVal = s.hVal := rfl
@[simp] theorem State.afterAnswer_msg (s : State) : (s.afterAnswer).msg = s.msg := rfl
@[simp] theorem State.afterAnswer_msgLen (s : State) : (s.afterAnswer).msgLen = s.msgLen := rfl
@[simp] theorem State.afterAnswer_fatalCause (s : State) : (s.afterAnswer).fatalCause = s.fatalCause := rfl
@[simp] theorem State.afterAnswer_fatalKind (s : State) : (s.afterAnswer).fatalKind = s.fatalKind := rfl
@[simp] theorem State.afterAnswer_cfg (s : State) : (s.afterAnswer).cfg = s.cfg := rfl
@[simp] theorem State.afterAnswer_inbound (s : State) : (s.afterAnswer).inbound = s.inbound := rfl
@[simp] theorem State.afterAnswer_trace (s : State) : (s.afterAnswer).trace = s.trace := rfl
@[simp] theorem State.afterAnswer_plan (s : State) : (s.afterAnswer).plan = s.plan := rfl
@[simp] theorem State.afterAnswer_answers (s : State) : (s.afterAnswer).answers = s.answers.tail := rfl
@[simp] theorem State.afterAnswer_draw (s : State) : (s.afterAnswer).draw = if s.answers.isEmpty then s.draw + 1 else s.draw := rfl

/-! ## A slot taken -/

@[simp] theorem State.afterSlot_spfPc (s : State) : (s.afterSlot).spfPc = s.spfPc := rfl
@[simp] theorem State.afterSlot_kind (s : State) : (s.afterSlot).kind = s.kind := rfl
@[simp] theorem State.afterSlot_status (s : State) : (s.afterSlot).status = s.status := rfl
@[simp] theorem State.afterSlot_acc (s : State) : (s.afterSlot).acc = s.acc := rfl
@[simp] theorem State.afterSlot_raw (s : State) : (s.afterSlot).raw = s.raw := rfl
@[simp] theorem State.afterSlot_val (s : State) : (s.afterSlot).val = s.val := rfl
@[simp] theorem State.afterSlot_err (s : State) : (s.afterSlot).err = s.err := rfl
@[simp] theorem State.afterSlot_busHeld (s : State) : (s.afterSlot).busHeld = s.busHeld := rfl
@[simp] theorem State.afterSlot_pollCnt (s : State) : (s.afterSlot).pollCnt = s.pollCnt := rfl
@[simp] theorem State.afterSlot_sdlPc (s : State) : (s.afterSlot).sdlPc = s.sdlPc := rfl
@[simp] theorem State.afterSlot_armed (s : State) : (s.afterSlot).armed = s.armed := rfl
@[simp] theorem State.afterSlot_tmr (s : State) : (s.afterSlot).tmr = s.tmr := rfl
@[simp] theorem State.afterSlot_tickPend (s : State) : (s.afterSlot).tickPend = s.tickPend := rfl
@[simp] theorem State.afterSlot_indicator (s : State) : (s.afterSlot).indicator = s.indicator := rfl
@[simp] theorem State.afterSlot_tVal (s : State) : (s.afterSlot).tVal = s.tVal := rfl
@[simp] theorem State.afterSlot_hVal (s : State) : (s.afterSlot).hVal = s.hVal := rfl
@[simp] theorem State.afterSlot_msg (s : State) : (s.afterSlot).msg = s.msg := rfl
@[simp] theorem State.afterSlot_msgLen (s : State) : (s.afterSlot).msgLen = s.msgLen := rfl
@[simp] theorem State.afterSlot_fatalCause (s : State) : (s.afterSlot).fatalCause = s.fatalCause := rfl
@[simp] theorem State.afterSlot_fatalKind (s : State) : (s.afterSlot).fatalKind = s.fatalKind := rfl
@[simp] theorem State.afterSlot_cfg (s : State) : (s.afterSlot).cfg = s.cfg := rfl
@[simp] theorem State.afterSlot_inbound (s : State) : (s.afterSlot).inbound = s.nextSlot.delivered s.inbound := rfl
@[simp] theorem State.afterSlot_trace (s : State) : (s.afterSlot).trace = s.trace := rfl
@[simp] theorem State.afterSlot_plan (s : State) : (s.afterSlot).plan = s.plan.tail := rfl
@[simp] theorem State.afterSlot_answers (s : State) : (s.afterSlot).answers = s.answers := rfl
@[simp] theorem State.afterSlot_draw (s : State) : (s.afterSlot).draw = if s.plan.isEmpty then s.draw + 1 else s.draw := rfl

/-! ## A message stored -/

@[simp] theorem State.storeMessage_spfPc (s : State) (m : Bytes) : (s.storeMessage m).spfPc = s.spfPc := rfl
@[simp] theorem State.storeMessage_kind (s : State) (m : Bytes) : (s.storeMessage m).kind = s.kind := rfl
@[simp] theorem State.storeMessage_status (s : State) (m : Bytes) : (s.storeMessage m).status = s.status := rfl
@[simp] theorem State.storeMessage_acc (s : State) (m : Bytes) : (s.storeMessage m).acc = s.acc := rfl
@[simp] theorem State.storeMessage_raw (s : State) (m : Bytes) : (s.storeMessage m).raw = s.raw := rfl
@[simp] theorem State.storeMessage_val (s : State) (m : Bytes) : (s.storeMessage m).val = s.val := rfl
@[simp] theorem State.storeMessage_err (s : State) (m : Bytes) : (s.storeMessage m).err = s.err := rfl
@[simp] theorem State.storeMessage_busHeld (s : State) (m : Bytes) : (s.storeMessage m).busHeld = s.busHeld := rfl
@[simp] theorem State.storeMessage_pollCnt (s : State) (m : Bytes) : (s.storeMessage m).pollCnt = s.pollCnt := rfl
@[simp] theorem State.storeMessage_sdlPc (s : State) (m : Bytes) : (s.storeMessage m).sdlPc = s.sdlPc := rfl
@[simp] theorem State.storeMessage_armed (s : State) (m : Bytes) : (s.storeMessage m).armed = s.armed := rfl
@[simp] theorem State.storeMessage_tmr (s : State) (m : Bytes) : (s.storeMessage m).tmr = s.tmr := rfl
@[simp] theorem State.storeMessage_tickPend (s : State) (m : Bytes) : (s.storeMessage m).tickPend = s.tickPend := rfl
@[simp] theorem State.storeMessage_indicator (s : State) (m : Bytes) : (s.storeMessage m).indicator = s.indicator := rfl
@[simp] theorem State.storeMessage_tVal (s : State) (m : Bytes) : (s.storeMessage m).tVal = s.tVal := rfl
@[simp] theorem State.storeMessage_hVal (s : State) (m : Bytes) : (s.storeMessage m).hVal = s.hVal := rfl
@[simp] theorem State.storeMessage_msg (s : State) (m : Bytes) : (s.storeMessage m).msg = s.msg.store 0 (m.take msgSize) := rfl
@[simp] theorem State.storeMessage_msgLen (s : State) (m : Bytes) : (s.storeMessage m).msgLen = BitVec.ofNat 4 m.length := rfl
@[simp] theorem State.storeMessage_fatalCause (s : State) (m : Bytes) : (s.storeMessage m).fatalCause = s.fatalCause := rfl
@[simp] theorem State.storeMessage_fatalKind (s : State) (m : Bytes) : (s.storeMessage m).fatalKind = s.fatalKind := rfl
@[simp] theorem State.storeMessage_cfg (s : State) (m : Bytes) : (s.storeMessage m).cfg = s.cfg := rfl
@[simp] theorem State.storeMessage_inbound (s : State) (m : Bytes) : (s.storeMessage m).inbound = s.inbound := rfl
@[simp] theorem State.storeMessage_trace (s : State) (m : Bytes) : (s.storeMessage m).trace = s.trace := rfl
@[simp] theorem State.storeMessage_plan (s : State) (m : Bytes) : (s.storeMessage m).plan = s.plan := rfl
@[simp] theorem State.storeMessage_answers (s : State) (m : Bytes) : (s.storeMessage m).answers = s.answers := rfl
@[simp] theorem State.storeMessage_draw (s : State) (m : Bytes) : (s.storeMessage m).draw = s.draw := rfl

/-! ## An accepted `START` -/

@[simp] theorem State.accept_spfPc (s : State) (k : Kind) : (s.accept k).spfPc = .cmd := rfl
@[simp] theorem State.accept_kind (s : State) (k : Kind) : (s.accept k).kind = k := rfl
@[simp] theorem State.accept_status (s : State) (k : Kind) : (s.accept k).status = s.status := rfl
@[simp] theorem State.accept_acc (s : State) (k : Kind) : (s.accept k).acc = s.acc := rfl
@[simp] theorem State.accept_raw (s : State) (k : Kind) : (s.accept k).raw = s.raw := rfl
@[simp] theorem State.accept_val (s : State) (k : Kind) : (s.accept k).val = s.val := rfl
@[simp] theorem State.accept_err (s : State) (k : Kind) : (s.accept k).err = .eNone := rfl
@[simp] theorem State.accept_busHeld (s : State) (k : Kind) : (s.accept k).busHeld = true := rfl
@[simp] theorem State.accept_pollCnt (s : State) (k : Kind) : (s.accept k).pollCnt = 0 := rfl
@[simp] theorem State.accept_sdlPc (s : State) (k : Kind) : (s.accept k).sdlPc = s.sdlPc := rfl
@[simp] theorem State.accept_armed (s : State) (k : Kind) : (s.accept k).armed = s.armed := rfl
@[simp] theorem State.accept_tmr (s : State) (k : Kind) : (s.accept k).tmr = s.tmr := rfl
@[simp] theorem State.accept_tickPend (s : State) (k : Kind) : (s.accept k).tickPend = s.tickPend := rfl
@[simp] theorem State.accept_indicator (s : State) (k : Kind) : (s.accept k).indicator = s.indicator := rfl
@[simp] theorem State.accept_tVal (s : State) (k : Kind) : (s.accept k).tVal = s.tVal := rfl
@[simp] theorem State.accept_hVal (s : State) (k : Kind) : (s.accept k).hVal = s.hVal := rfl
@[simp] theorem State.accept_msg (s : State) (k : Kind) : (s.accept k).msg = s.msg := rfl
@[simp] theorem State.accept_msgLen (s : State) (k : Kind) : (s.accept k).msgLen = s.msgLen := rfl
@[simp] theorem State.accept_fatalCause (s : State) (k : Kind) : (s.accept k).fatalCause = s.fatalCause := rfl
@[simp] theorem State.accept_fatalKind (s : State) (k : Kind) : (s.accept k).fatalKind = s.fatalKind := rfl
@[simp] theorem State.accept_cfg (s : State) (k : Kind) : (s.accept k).cfg = s.cfg := rfl
@[simp] theorem State.accept_inbound (s : State) (k : Kind) : (s.accept k).inbound = s.inbound := rfl
@[simp] theorem State.accept_trace (s : State) (k : Kind) : (s.accept k).trace = s.trace := rfl
@[simp] theorem State.accept_plan (s : State) (k : Kind) : (s.accept k).plan = s.plan := rfl
@[simp] theorem State.accept_answers (s : State) (k : Kind) : (s.accept k).answers = s.answers := rfl
@[simp] theorem State.accept_draw (s : State) (k : Kind) : (s.accept k).draw = s.draw := rfl

/-! ## The fatal entry -/

@[simp] theorem State.fatalEntry_spfPc (s : State) (k : Kind) (e : Cause) : (s.fatalEntry k e).spfPc = s.spfPc := rfl
@[simp] theorem State.fatalEntry_kind (s : State) (k : Kind) (e : Cause) : (s.fatalEntry k e).kind = s.kind := rfl
@[simp] theorem State.fatalEntry_status (s : State) (k : Kind) (e : Cause) : (s.fatalEntry k e).status = s.status := rfl
@[simp] theorem State.fatalEntry_acc (s : State) (k : Kind) (e : Cause) : (s.fatalEntry k e).acc = s.acc := rfl
@[simp] theorem State.fatalEntry_raw (s : State) (k : Kind) (e : Cause) : (s.fatalEntry k e).raw = s.raw := rfl
@[simp] theorem State.fatalEntry_val (s : State) (k : Kind) (e : Cause) : (s.fatalEntry k e).val = s.val := rfl
@[simp] theorem State.fatalEntry_err (s : State) (k : Kind) (e : Cause) : (s.fatalEntry k e).err = s.err := rfl
@[simp] theorem State.fatalEntry_busHeld (s : State) (k : Kind) (e : Cause) : (s.fatalEntry k e).busHeld = s.busHeld := rfl
@[simp] theorem State.fatalEntry_pollCnt (s : State) (k : Kind) (e : Cause) : (s.fatalEntry k e).pollCnt = s.pollCnt := rfl
@[simp] theorem State.fatalEntry_sdlPc (s : State) (k : Kind) (e : Cause) : (s.fatalEntry k e).sdlPc = .fatal := rfl
@[simp] theorem State.fatalEntry_armed (s : State) (k : Kind) (e : Cause) : (s.fatalEntry k e).armed = false := rfl
@[simp] theorem State.fatalEntry_tmr (s : State) (k : Kind) (e : Cause) : (s.fatalEntry k e).tmr = s.tmr := rfl
@[simp] theorem State.fatalEntry_tickPend (s : State) (k : Kind) (e : Cause) : (s.fatalEntry k e).tickPend = s.tickPend := rfl
@[simp] theorem State.fatalEntry_indicator (s : State) (k : Kind) (e : Cause) : (s.fatalEntry k e).indicator = s.indicator := rfl
@[simp] theorem State.fatalEntry_tVal (s : State) (k : Kind) (e : Cause) : (s.fatalEntry k e).tVal = s.tVal := rfl
@[simp] theorem State.fatalEntry_hVal (s : State) (k : Kind) (e : Cause) : (s.fatalEntry k e).hVal = s.hVal := rfl
@[simp] theorem State.fatalEntry_msg (s : State) (k : Kind) (e : Cause) : (s.fatalEntry k e).msg = s.msg := rfl
@[simp] theorem State.fatalEntry_msgLen (s : State) (k : Kind) (e : Cause) : (s.fatalEntry k e).msgLen = s.msgLen := rfl
@[simp] theorem State.fatalEntry_fatalCause (s : State) (k : Kind) (e : Cause) : (s.fatalEntry k e).fatalCause = e := rfl
@[simp] theorem State.fatalEntry_fatalKind (s : State) (k : Kind) (e : Cause) : (s.fatalEntry k e).fatalKind = k := rfl
@[simp] theorem State.fatalEntry_cfg (s : State) (k : Kind) (e : Cause) : (s.fatalEntry k e).cfg = s.cfg := rfl
@[simp] theorem State.fatalEntry_inbound (s : State) (k : Kind) (e : Cause) : (s.fatalEntry k e).inbound = s.inbound := rfl
@[simp] theorem State.fatalEntry_trace (s : State) (k : Kind) (e : Cause) : (s.fatalEntry k e).trace = s.trace := rfl
@[simp] theorem State.fatalEntry_plan (s : State) (k : Kind) (e : Cause) : (s.fatalEntry k e).plan = s.plan := rfl
@[simp] theorem State.fatalEntry_answers (s : State) (k : Kind) (e : Cause) : (s.fatalEntry k e).answers = s.answers := rfl
@[simp] theorem State.fatalEntry_draw (s : State) (k : Kind) (e : Cause) : (s.fatalEntry k e).draw = s.draw := rfl

/-! ## An indicator write -/

@[simp] theorem State.setIndicator_spfPc (s : State) (level : Bool) : (s.setIndicator level).spfPc = s.spfPc := rfl
@[simp] theorem State.setIndicator_kind (s : State) (level : Bool) : (s.setIndicator level).kind = s.kind := rfl
@[simp] theorem State.setIndicator_status (s : State) (level : Bool) : (s.setIndicator level).status = s.status := rfl
@[simp] theorem State.setIndicator_acc (s : State) (level : Bool) : (s.setIndicator level).acc = s.acc := rfl
@[simp] theorem State.setIndicator_raw (s : State) (level : Bool) : (s.setIndicator level).raw = s.raw := rfl
@[simp] theorem State.setIndicator_val (s : State) (level : Bool) : (s.setIndicator level).val = s.val := rfl
@[simp] theorem State.setIndicator_err (s : State) (level : Bool) : (s.setIndicator level).err = s.err := rfl
@[simp] theorem State.setIndicator_busHeld (s : State) (level : Bool) : (s.setIndicator level).busHeld = s.busHeld := rfl
@[simp] theorem State.setIndicator_pollCnt (s : State) (level : Bool) : (s.setIndicator level).pollCnt = s.pollCnt := rfl
@[simp] theorem State.setIndicator_sdlPc (s : State) (level : Bool) : (s.setIndicator level).sdlPc = s.sdlPc := rfl
@[simp] theorem State.setIndicator_armed (s : State) (level : Bool) : (s.setIndicator level).armed = s.armed := rfl
@[simp] theorem State.setIndicator_tmr (s : State) (level : Bool) : (s.setIndicator level).tmr = s.tmr := rfl
@[simp] theorem State.setIndicator_tickPend (s : State) (level : Bool) : (s.setIndicator level).tickPend = s.tickPend := rfl
@[simp] theorem State.setIndicator_indicator (s : State) (level : Bool) : (s.setIndicator level).indicator = level := rfl
@[simp] theorem State.setIndicator_tVal (s : State) (level : Bool) : (s.setIndicator level).tVal = s.tVal := rfl
@[simp] theorem State.setIndicator_hVal (s : State) (level : Bool) : (s.setIndicator level).hVal = s.hVal := rfl
@[simp] theorem State.setIndicator_msg (s : State) (level : Bool) : (s.setIndicator level).msg = s.msg := rfl
@[simp] theorem State.setIndicator_msgLen (s : State) (level : Bool) : (s.setIndicator level).msgLen = s.msgLen := rfl
@[simp] theorem State.setIndicator_fatalCause (s : State) (level : Bool) : (s.setIndicator level).fatalCause = s.fatalCause := rfl
@[simp] theorem State.setIndicator_fatalKind (s : State) (level : Bool) : (s.setIndicator level).fatalKind = s.fatalKind := rfl
@[simp] theorem State.setIndicator_cfg (s : State) (level : Bool) : (s.setIndicator level).cfg = s.cfg := rfl
@[simp] theorem State.setIndicator_inbound (s : State) (level : Bool) : (s.setIndicator level).inbound = s.inbound := rfl
@[simp] theorem State.setIndicator_trace (s : State) (level : Bool) : (s.setIndicator level).trace = s.trace ++ [.ind level] := rfl
@[simp] theorem State.setIndicator_plan (s : State) (level : Bool) : (s.setIndicator level).plan = s.plan := rfl
@[simp] theorem State.setIndicator_answers (s : State) (level : Bool) : (s.setIndicator level).answers = s.answers := rfl
@[simp] theorem State.setIndicator_draw (s : State) (level : Bool) : (s.setIndicator level).draw = s.draw := rfl

/-! ## A tick raised -/

@[simp] theorem State.raiseTick_spfPc (s : State) : (s.raiseTick).spfPc = s.spfPc := rfl
@[simp] theorem State.raiseTick_kind (s : State) : (s.raiseTick).kind = s.kind := rfl
@[simp] theorem State.raiseTick_status (s : State) : (s.raiseTick).status = s.status := rfl
@[simp] theorem State.raiseTick_acc (s : State) : (s.raiseTick).acc = s.acc := rfl
@[simp] theorem State.raiseTick_raw (s : State) : (s.raiseTick).raw = s.raw := rfl
@[simp] theorem State.raiseTick_val (s : State) : (s.raiseTick).val = s.val := rfl
@[simp] theorem State.raiseTick_err (s : State) : (s.raiseTick).err = s.err := rfl
@[simp] theorem State.raiseTick_busHeld (s : State) : (s.raiseTick).busHeld = s.busHeld := rfl
@[simp] theorem State.raiseTick_pollCnt (s : State) : (s.raiseTick).pollCnt = s.pollCnt := rfl
@[simp] theorem State.raiseTick_sdlPc (s : State) : (s.raiseTick).sdlPc = s.sdlPc := rfl
@[simp] theorem State.raiseTick_armed (s : State) : (s.raiseTick).armed = s.armed := rfl
@[simp] theorem State.raiseTick_tmr (s : State) : (s.raiseTick).tmr = s.tmr := rfl
@[simp] theorem State.raiseTick_tickPend (s : State) : (s.raiseTick).tickPend = (s.tickPend || tickRemembered s.cfg.tickOverrun s.sdlPc) := rfl
@[simp] theorem State.raiseTick_indicator (s : State) : (s.raiseTick).indicator = s.indicator := rfl
@[simp] theorem State.raiseTick_tVal (s : State) : (s.raiseTick).tVal = s.tVal := rfl
@[simp] theorem State.raiseTick_hVal (s : State) : (s.raiseTick).hVal = s.hVal := rfl
@[simp] theorem State.raiseTick_msg (s : State) : (s.raiseTick).msg = s.msg := rfl
@[simp] theorem State.raiseTick_msgLen (s : State) : (s.raiseTick).msgLen = s.msgLen := rfl
@[simp] theorem State.raiseTick_fatalCause (s : State) : (s.raiseTick).fatalCause = s.fatalCause := rfl
@[simp] theorem State.raiseTick_fatalKind (s : State) : (s.raiseTick).fatalKind = s.fatalKind := rfl
@[simp] theorem State.raiseTick_cfg (s : State) : (s.raiseTick).cfg = s.cfg := rfl
@[simp] theorem State.raiseTick_inbound (s : State) : (s.raiseTick).inbound = s.inbound := rfl
@[simp] theorem State.raiseTick_trace (s : State) : (s.raiseTick).trace = s.trace ++ [.tick] := rfl
@[simp] theorem State.raiseTick_plan (s : State) : (s.raiseTick).plan = s.plan := rfl
@[simp] theorem State.raiseTick_answers (s : State) : (s.raiseTick).answers = s.answers := rfl
@[simp] theorem State.raiseTick_draw (s : State) : (s.raiseTick).draw = s.draw := rfl

/-! ## The host's reset -/

@[simp] theorem State.hostReset_spfPc (s : State) : (s.hostReset).spfPc = State.reset.spfPc := rfl
@[simp] theorem State.hostReset_kind (s : State) : (s.hostReset).kind = State.reset.kind := rfl
@[simp] theorem State.hostReset_status (s : State) : (s.hostReset).status = State.reset.status := rfl
@[simp] theorem State.hostReset_acc (s : State) : (s.hostReset).acc = State.reset.acc := rfl
@[simp] theorem State.hostReset_raw (s : State) : (s.hostReset).raw = State.reset.raw := rfl
@[simp] theorem State.hostReset_val (s : State) : (s.hostReset).val = State.reset.val := rfl
@[simp] theorem State.hostReset_err (s : State) : (s.hostReset).err = State.reset.err := rfl
@[simp] theorem State.hostReset_busHeld (s : State) : (s.hostReset).busHeld = State.reset.busHeld := rfl
@[simp] theorem State.hostReset_pollCnt (s : State) : (s.hostReset).pollCnt = State.reset.pollCnt := rfl
@[simp] theorem State.hostReset_sdlPc (s : State) : (s.hostReset).sdlPc = State.reset.sdlPc := rfl
@[simp] theorem State.hostReset_armed (s : State) : (s.hostReset).armed = State.reset.armed := rfl
@[simp] theorem State.hostReset_tmr (s : State) : (s.hostReset).tmr = State.reset.tmr := rfl
@[simp] theorem State.hostReset_tickPend (s : State) : (s.hostReset).tickPend = State.reset.tickPend := rfl
@[simp] theorem State.hostReset_indicator (s : State) : (s.hostReset).indicator = State.reset.indicator := rfl
@[simp] theorem State.hostReset_tVal (s : State) : (s.hostReset).tVal = State.reset.tVal := rfl
@[simp] theorem State.hostReset_hVal (s : State) : (s.hostReset).hVal = State.reset.hVal := rfl
@[simp] theorem State.hostReset_msg (s : State) : (s.hostReset).msg = State.reset.msg := rfl
@[simp] theorem State.hostReset_msgLen (s : State) : (s.hostReset).msgLen = State.reset.msgLen := rfl
@[simp] theorem State.hostReset_fatalCause (s : State) : (s.hostReset).fatalCause = State.reset.fatalCause := rfl
@[simp] theorem State.hostReset_fatalKind (s : State) : (s.hostReset).fatalKind = State.reset.fatalKind := rfl
@[simp] theorem State.hostReset_cfg (s : State) : (s.hostReset).cfg = s.cfg := rfl
@[simp] theorem State.hostReset_inbound (s : State) : (s.hostReset).inbound = s.inbound := rfl
@[simp] theorem State.hostReset_trace (s : State) : (s.hostReset).trace = State.reset.trace := rfl
@[simp] theorem State.hostReset_plan (s : State) : (s.hostReset).plan = s.plan := rfl
@[simp] theorem State.hostReset_answers (s : State) : (s.hostReset).answers = s.answers := rfl
@[simp] theorem State.hostReset_draw (s : State) : (s.hostReset).draw = s.draw := rfl

/-! ## The accumulator stage -/

@[simp] theorem accumulate_spfPc (s : State) (b0 b1 : Byte) : (accumulate b0 b1 s).spfPc = s.spfPc := rfl
@[simp] theorem accumulate_kind (s : State) (b0 b1 : Byte) : (accumulate b0 b1 s).kind = s.kind := rfl
@[simp] theorem accumulate_status (s : State) (b0 b1 : Byte) : (accumulate b0 b1 s).status = s.status := rfl
@[simp] theorem accumulate_acc (s : State) (b0 b1 : Byte) : (accumulate b0 b1 s).acc = acc16 [b0, b1] := rfl
@[simp] theorem accumulate_raw (s : State) (b0 b1 : Byte) : (accumulate b0 b1 s).raw = s.raw := rfl
@[simp] theorem accumulate_val (s : State) (b0 b1 : Byte) : (accumulate b0 b1 s).val = s.val := rfl
@[simp] theorem accumulate_err (s : State) (b0 b1 : Byte) : (accumulate b0 b1 s).err = s.err := rfl
@[simp] theorem accumulate_busHeld (s : State) (b0 b1 : Byte) : (accumulate b0 b1 s).busHeld = s.busHeld := rfl
@[simp] theorem accumulate_pollCnt (s : State) (b0 b1 : Byte) : (accumulate b0 b1 s).pollCnt = s.pollCnt := rfl
@[simp] theorem accumulate_sdlPc (s : State) (b0 b1 : Byte) : (accumulate b0 b1 s).sdlPc = s.sdlPc := rfl
@[simp] theorem accumulate_armed (s : State) (b0 b1 : Byte) : (accumulate b0 b1 s).armed = s.armed := rfl
@[simp] theorem accumulate_tmr (s : State) (b0 b1 : Byte) : (accumulate b0 b1 s).tmr = s.tmr := rfl
@[simp] theorem accumulate_tickPend (s : State) (b0 b1 : Byte) : (accumulate b0 b1 s).tickPend = s.tickPend := rfl
@[simp] theorem accumulate_indicator (s : State) (b0 b1 : Byte) : (accumulate b0 b1 s).indicator = s.indicator := rfl
@[simp] theorem accumulate_tVal (s : State) (b0 b1 : Byte) : (accumulate b0 b1 s).tVal = s.tVal := rfl
@[simp] theorem accumulate_hVal (s : State) (b0 b1 : Byte) : (accumulate b0 b1 s).hVal = s.hVal := rfl
@[simp] theorem accumulate_msg (s : State) (b0 b1 : Byte) : (accumulate b0 b1 s).msg = s.msg := rfl
@[simp] theorem accumulate_msgLen (s : State) (b0 b1 : Byte) : (accumulate b0 b1 s).msgLen = s.msgLen := rfl
@[simp] theorem accumulate_fatalCause (s : State) (b0 b1 : Byte) : (accumulate b0 b1 s).fatalCause = s.fatalCause := rfl
@[simp] theorem accumulate_fatalKind (s : State) (b0 b1 : Byte) : (accumulate b0 b1 s).fatalKind = s.fatalKind := rfl
@[simp] theorem accumulate_cfg (s : State) (b0 b1 : Byte) : (accumulate b0 b1 s).cfg = s.cfg := rfl
@[simp] theorem accumulate_inbound (s : State) (b0 b1 : Byte) : (accumulate b0 b1 s).inbound = s.inbound := rfl
@[simp] theorem accumulate_trace (s : State) (b0 b1 : Byte) : (accumulate b0 b1 s).trace = s.trace := rfl
@[simp] theorem accumulate_plan (s : State) (b0 b1 : Byte) : (accumulate b0 b1 s).plan = s.plan := rfl
@[simp] theorem accumulate_answers (s : State) (b0 b1 : Byte) : (accumulate b0 b1 s).answers = s.answers := rfl
@[simp] theorem accumulate_draw (s : State) (b0 b1 : Byte) : (accumulate b0 b1 s).draw = s.draw := rfl

/-! ## The shift-and-offset stage -/

@[simp] theorem shiftOffset_spfPc (s : State) (k : Kind) : (shiftOffset k s).spfPc = s.spfPc := rfl
@[simp] theorem shiftOffset_kind (s : State) (k : Kind) : (shiftOffset k s).kind = s.kind := rfl
@[simp] theorem shiftOffset_status (s : State) (k : Kind) : (shiftOffset k s).status = s.status := rfl
@[simp] theorem shiftOffset_acc (s : State) (k : Kind) : (shiftOffset k s).acc = s.acc := rfl
@[simp] theorem shiftOffset_raw (s : State) (k : Kind) : (shiftOffset k s).raw = shr k s.acc := rfl
@[simp] theorem shiftOffset_val (s : State) (k : Kind) : (shiftOffset k s).val = num k (shr k s.acc) := rfl
@[simp] theorem shiftOffset_err (s : State) (k : Kind) : (shiftOffset k s).err = s.err := rfl
@[simp] theorem shiftOffset_busHeld (s : State) (k : Kind) : (shiftOffset k s).busHeld = s.busHeld := rfl
@[simp] theorem shiftOffset_pollCnt (s : State) (k : Kind) : (shiftOffset k s).pollCnt = s.pollCnt := rfl
@[simp] theorem shiftOffset_sdlPc (s : State) (k : Kind) : (shiftOffset k s).sdlPc = s.sdlPc := rfl
@[simp] theorem shiftOffset_armed (s : State) (k : Kind) : (shiftOffset k s).armed = s.armed := rfl
@[simp] theorem shiftOffset_tmr (s : State) (k : Kind) : (shiftOffset k s).tmr = s.tmr := rfl
@[simp] theorem shiftOffset_tickPend (s : State) (k : Kind) : (shiftOffset k s).tickPend = s.tickPend := rfl
@[simp] theorem shiftOffset_indicator (s : State) (k : Kind) : (shiftOffset k s).indicator = s.indicator := rfl
@[simp] theorem shiftOffset_tVal (s : State) (k : Kind) : (shiftOffset k s).tVal = s.tVal := rfl
@[simp] theorem shiftOffset_hVal (s : State) (k : Kind) : (shiftOffset k s).hVal = s.hVal := rfl
@[simp] theorem shiftOffset_msg (s : State) (k : Kind) : (shiftOffset k s).msg = s.msg := rfl
@[simp] theorem shiftOffset_msgLen (s : State) (k : Kind) : (shiftOffset k s).msgLen = s.msgLen := rfl
@[simp] theorem shiftOffset_fatalCause (s : State) (k : Kind) : (shiftOffset k s).fatalCause = s.fatalCause := rfl
@[simp] theorem shiftOffset_fatalKind (s : State) (k : Kind) : (shiftOffset k s).fatalKind = s.fatalKind := rfl
@[simp] theorem shiftOffset_cfg (s : State) (k : Kind) : (shiftOffset k s).cfg = s.cfg := rfl
@[simp] theorem shiftOffset_inbound (s : State) (k : Kind) : (shiftOffset k s).inbound = s.inbound := rfl
@[simp] theorem shiftOffset_trace (s : State) (k : Kind) : (shiftOffset k s).trace = s.trace := rfl
@[simp] theorem shiftOffset_plan (s : State) (k : Kind) : (shiftOffset k s).plan = s.plan := rfl
@[simp] theorem shiftOffset_answers (s : State) (k : Kind) : (shiftOffset k s).answers = s.answers := rfl
@[simp] theorem shiftOffset_draw (s : State) (k : Kind) : (shiftOffset k s).draw = s.draw := rfl

/-! ## A bus transaction -/

@[simp] theorem busXfer_answer (dev : Nat) (w : Bytes) (rlen : Nat) (s : State) : (busXfer dev w rlen s).1 = s.answer := rfl

@[simp] theorem busXfer_state (dev : Nat) (w : Bytes) (rlen : Nat) (s : State) :
    (busXfer dev w rlen s).2 =
      s.afterAnswer.emit (.bus dev w rlen s.answer.n (answerBytes s.answer rlen)) := rfl

end Sys2Proof.Machine
end

