-- ==== Sys2Proof/Laws/Memory.lean ====
section
/-! SUPPORT. The laws of the message buffer: every operation keeps the canonical form, a read after a write gives the
value written, and a write leaves every other address alone. -/

namespace Sys2Proof.Machine

/-! ## The canonical form -/

theorem Memory.wfFrom_cons {lo : Nat} {c : Host.Cell} {rest : Memory} :
    Memory.wfFrom lo (c :: rest) = true ↔
      lo ≤ c.1 ∧ c.2 ≠ Memory.unlisted ∧ rest.wfFrom (c.1 + 1) = true := by
  simp only [Memory.wfFrom, Bool.and_eq_true, decide_eq_true_eq, bne_iff_ne, ne_eq, and_assoc]

theorem Memory.wfFrom_mono {lo lo' : Nat} (h : lo' ≤ lo) {m : Memory} (hm : m.wfFrom lo = true) :
    m.wfFrom lo' = true := by
  cases m with
  | nil => rfl
  | cons c rest =>
    rw [Memory.wfFrom_cons] at hm ⊢
    exact ⟨by omega, hm.2⟩

theorem Memory.insert_wfFrom {lo a : Nat} {b : Byte} (hb : b ≠ Memory.unlisted) (ha : lo ≤ a)
    {m : Memory} (hm : m.wfFrom lo = true) : (m.insert a b).wfFrom lo = true := by
  induction m generalizing lo with
  | nil => exact Memory.wfFrom_cons.2 ⟨ha, hb, rfl⟩
  | cons c rest ih =>
    obtain ⟨hlo, hc, hrest⟩ := Memory.wfFrom_cons.1 hm
    unfold Memory.insert
    split
    · exact Memory.wfFrom_cons.2 ⟨ha, hb, Memory.wfFrom_cons.2 ⟨by simp only; omega, hc, hrest⟩⟩
    · split
      · subst_vars; exact Memory.wfFrom_cons.2 ⟨ha, hb, hrest⟩
      · exact Memory.wfFrom_cons.2 ⟨hlo, hc, ih (by omega) hrest⟩

theorem Memory.erase_wfFrom {lo a : Nat} {m : Memory} (hm : m.wfFrom lo = true) :
    (m.erase a).wfFrom lo = true := by
  induction m generalizing lo with
  | nil => rfl
  | cons c rest ih =>
    obtain ⟨hlo, hc, hrest⟩ := Memory.wfFrom_cons.1 hm
    unfold Memory.erase
    split
    · exact hm
    · split
      · exact Memory.wfFrom_mono (by omega) hrest
      · exact Memory.wfFrom_cons.2 ⟨hlo, hc, ih hrest⟩

/-- A write keeps the canonical form. -/
theorem Memory.write_wf {m : Memory} (a : Nat) (b : Byte) (hm : m.wf = true) :
    (m.write a b).wf = true := by
  unfold Memory.write Memory.wf
  split
  · exact Memory.erase_wfFrom hm
  · exact Memory.insert_wfFrom ‹_› (Nat.zero_le _) hm

/-- Storing a byte sequence keeps the canonical form. -/
theorem Memory.store_wf {m : Memory} (base : Nat) (bs : Bytes) (hm : m.wf = true) :
    (m.store base bs).wf = true := by
  induction bs generalizing m base with
  | nil => exact hm
  | cons b bs ih => exact ih (base + 1) (Memory.write_wf base b hm)

/-- Reset's memory is canonical. -/
theorem reset_msg_wf : State.reset.msg.wf = true := rfl

/-! ## Which addresses are listed -/

theorem Memory.mem_insert {a : Nat} {b : Byte} {c : Host.Cell} :
    ∀ {m : Memory}, c ∈ m.insert a b → c = (a, b) ∨ c ∈ m := by
  intro m
  induction m with
  | nil => intro h; simpa [Memory.insert] using h
  | cons d rest ih =>
    unfold Memory.insert
    split
    · simp
    · split
      · intro h; simp at h ⊢; tauto
      · intro h
        rcases List.mem_cons.1 h with h | h
        · simp [h]
        · rcases ih h with h | h <;> simp [h]

theorem Memory.mem_erase {a : Nat} {c : Host.Cell} :
    ∀ {m : Memory}, c ∈ m.erase a → c ∈ m := by
  intro m
  induction m with
  | nil => intro h; exact h
  | cons d rest ih =>
    unfold Memory.erase
    split
    · exact id
    · split
      · intro h; simp [h]
      · intro h
        rcases List.mem_cons.1 h with h | h
        · simp [h]
        · simp [ih h]

/-- A write lists no address but its own and those listed before. -/
theorem Memory.mem_write {m : Memory} {a : Nat} {b : Byte} {c : Host.Cell} (h : c ∈ m.write a b) :
    c.1 = a ∨ c ∈ m := by
  unfold Memory.write at h
  split at h
  · exact .inr (Memory.mem_erase h)
  · rcases Memory.mem_insert h with h | h
    · exact .inl (by rw [h])
    · exact .inr h

/-- A store lists only addresses of its own range and those listed before. -/
theorem Memory.mem_store {m : Memory} {base : Nat} {bs : Bytes} {c : Host.Cell}
    (h : c ∈ m.store base bs) : (base ≤ c.1 ∧ c.1 < base + bs.length) ∨ c ∈ m := by
  induction bs generalizing m base with
  | nil => exact .inr h
  | cons b bs ih =>
    rcases ih (m := m.write base b) (base := base + 1) h with h | h
    · left; simp; omega
    · rcases Memory.mem_write h with h | h
      · left; simp; omega
      · exact .inr h

/-- A message store lists only the buffer's 13 bytes. -/
theorem Memory.store_bounded {m : Memory} (bs : Bytes) (hm : ∀ c ∈ m, c.1 < msgSize) :
    ∀ c ∈ m.store 0 (bs.take msgSize), c.1 < msgSize := by
  intro c hc
  rcases Memory.mem_store hc with h | h
  · have : (bs.take msgSize).length ≤ msgSize := by simp
    omega
  · exact hm c h

/-! ## Reading -/

theorem Memory.read_cons {c : Host.Cell} {rest : Memory} {a : Nat} :
    Memory.read (c :: rest) a = if c.1 = a then c.2 else rest.read a := rfl

theorem Memory.read_of_wfFrom {lo a : Nat} (h : a < lo) {m : Memory} (hm : m.wfFrom lo = true) :
    m.read a = Memory.unlisted := by
  induction m generalizing lo with
  | nil => rfl
  | cons c rest ih =>
    obtain ⟨hlo, -, hrest⟩ := Memory.wfFrom_cons.1 hm
    rw [Memory.read_cons, if_neg (by omega), ih (lo := c.1 + 1) (by omega) hrest]

theorem Memory.read_insert {lo a x : Nat} {b : Byte} {m : Memory} (hm : m.wfFrom lo = true) :
    (m.insert a b).read x = if x = a then b else m.read x := by
  induction m generalizing lo with
  | nil => simp only [Memory.insert, Memory.read_cons, Memory.read, eq_comm]
  | cons c rest ih =>
    obtain ⟨-, -, hrest⟩ := Memory.wfFrom_cons.1 hm
    unfold Memory.insert
    split
    · simp only [Memory.read_cons, eq_comm]
    · split
      · simp only [Memory.read_cons]
        by_cases h : x = a
        · rw [if_pos h.symm, if_pos h]
        · rw [if_neg (fun e => h e.symm), if_neg h, if_neg (by omega)]
      · simp only [Memory.read_cons, ih hrest]
        by_cases h : c.1 = x
        · rw [if_pos h, if_neg (by omega), if_pos h]
        · rw [if_neg h, if_neg h]

theorem Memory.read_erase {lo a x : Nat} {m : Memory} (hm : m.wfFrom lo = true) :
    (m.erase a).read x = if x = a then Memory.unlisted else m.read x := by
  induction m generalizing lo with
  | nil => simp only [Memory.erase, Memory.read, ite_self]
  | cons c rest ih =>
    obtain ⟨-, hc, hrest⟩ := Memory.wfFrom_cons.1 hm
    unfold Memory.erase
    split
    · by_cases h : x = a
      · rw [if_pos h, Memory.read_of_wfFrom (lo := c.1) (by omega)
          (Memory.wfFrom_cons.2 ⟨Nat.le_refl _, hc, hrest⟩)]
      · rw [if_neg h]
    · split
      · by_cases h : x = a
        · rw [if_pos h, Memory.read_of_wfFrom (lo := c.1 + 1) (by omega) hrest]
        · rw [if_neg h, Memory.read_cons, if_neg (by omega)]
      · simp only [Memory.read_cons, ih hrest]
        by_cases h : c.1 = x
        · rw [if_pos h, if_neg (by omega), if_pos h]
        · rw [if_neg h, if_neg h]

/-- Reading after one write. -/
theorem Memory.read_write {m : Memory} (a x : Nat) (b : Byte) (hm : m.wf = true) :
    (m.write a b).read x = if x = a then b else m.read x := by
  unfold Memory.write
  split
  · rename_i hb
    rw [Memory.read_erase hm, hb]
  · exact Memory.read_insert hm

/-- Reading after a store: the stored bytes in their range, every other address as before. -/
theorem Memory.read_store {m : Memory} (base x : Nat) (bs : Bytes) (hm : m.wf = true) :
    (m.store base bs).read x =
      if h : base ≤ x ∧ x < base + bs.length then bs[x - base]'(by omega) else m.read x := by
  induction bs generalizing m base with
  | nil =>
    rw [Memory.store, dif_neg (by simp only [List.length_nil]; omega)]
  | cons b bs ih =>
    rw [Memory.store, ih (base + 1) (Memory.write_wf base b hm), Memory.read_write base x b hm]
    by_cases h1 : x = base
    · subst h1
      have h2 : ¬ (x + 1 ≤ x ∧ x < x + 1 + bs.length) := by omega
      have h3 : x ≤ x ∧ x < x + (b :: bs).length := by simp
      rw [dif_neg h2, dif_pos h3, if_pos rfl]
      simp
    · by_cases h2 : base + 1 ≤ x ∧ x < base + 1 + bs.length
      · have h3 : base ≤ x ∧ x < base + (b :: bs).length := by simp; omega
        rw [dif_pos h2, dif_pos h3]
        have : x - base = (x - (base + 1)) + 1 := by omega
        simp [this]
      · have h3 : ¬ (base ≤ x ∧ x < base + (b :: bs).length) := by simp; omega
        rw [dif_neg h2, dif_neg h3, if_neg h1]

end Sys2Proof.Machine
end

