-- ==== Sys2Proof/Laws/PerInstr.lean ====
section
/-! SUPPORT. Statements about the instructions as syntax, one lemma per constructor. -/

/-- Decoding the bytes of a well-formed operation at its own interface gives it back and leaves what follows. -/
def Sys2Proof.Laws.RoundTrip.Statement (i : Sys2Proof.Instr) : Prop :=
  ∀ (p : Sys2Proof.Params) (rest : Sys2Proof.Bytes), i.wf p = true →
    Sys2Proof.decode p i.format (Sys2Proof.encodeBytes p i ++ rest) = .ok (i, rest)

namespace Sys2Proof.Laws.RoundTrip

theorem btCmdt : Statement .btCmdt := fun p rest _ => by
  simp [decode, decodeBusW2, encodeBytes, Instr.format, Except.map]

theorem btCmdh : Statement .btCmdh := fun p rest h => by
  have : p.cmdMeasureHumi ≠ p.cmdMeasureTemp := by simpa [Instr.wf] using h
  simp [decode, decodeBusW2, encodeBytes, Instr.format, Except.map, this]

theorem btStat : Statement .btStat := fun p rest _ => by
  simp [decode, decodeBusW1R1, encodeBytes, Instr.format, Except.map]

theorem btData : Statement .btData := fun p rest _ => by
  simp [decode, decodeBusW1R2, encodeBytes, Instr.format, Except.map]

theorem btId : Statement .btId := fun p rest h => by
  have : p.idReg ≠ p.statusReg := by simpa [Instr.wf] using h
  simp [decode, decodeBusW1R1, encodeBytes, Instr.format, Except.map, this]

theorem startT : Statement .startT := fun _ _ _ => rfl

theorem startH : Statement .startH := fun _ _ _ => rfl

theorem tgl : Statement .tgl := fun _ _ _ => rfl

theorem rdid : Statement .rdid := fun _ _ _ => rfl

theorem wrcmd : Statement .wrcmd := fun _ _ _ => rfl

theorem rdst : Statement .rdst := fun _ _ _ => rfl

theorem rddt : Statement .rddt := fun _ _ _ => rfl

theorem conv : Statement .conv := fun _ _ _ => rfl

theorem bprobe : Statement .bprobe := fun _ _ _ => rfl

theorem rinit : Statement .rinit := fun _ _ _ => rfl

theorem rrecv : Statement .rrecv := fun _ _ _ => rfl

theorem arm : Statement .arm := fun _ _ _ => rfl

theorem park : Statement .park := fun _ _ _ => rfl

theorem ledon1 : Statement .ledon1 := fun _ _ _ => rfl

theorem callT : Statement .callT := fun _ _ _ => rfl

theorem waitT : Statement .waitT := fun _ _ _ => rfl

theorem callH : Statement .callH := fun _ _ _ => rfl

theorem waitH : Statement .waitH := fun _ _ _ => rfl

theorem diag : Statement .diag := fun _ _ _ => rfl

theorem send : Statement .send := fun _ _ _ => rfl

theorem ledon2 : Statement .ledon2 := fun _ _ _ => rfl

theorem halt : Statement .halt := fun _ _ _ => rfl

theorem tu : Statement .tu := fun _ _ _ => rfl

theorem tick : Statement .tick := fun _ _ _ => rfl

theorem txdone : Statement .txdone := fun _ _ _ => rfl

theorem rxdata : Statement .rxdata := fun _ _ _ => rfl

theorem acc (k : Kind) (b0 b1 : Byte) : Statement (.acc k b0 b1) := fun _ _ _ => by
  cases k <;> rfl

theorem shroff (k : Kind) : Statement (.shroff k) := fun _ _ _ => by
  cases k <;> rfl

end Sys2Proof.Laws.RoundTrip
end

