-- ==== Sys2Proof/Laws/Step.lean ====
section
/-! SUPPORT. What the shared operations and a step can do, said once: every operation answers a next state, a step on a
turn never stops, and the case analyses that proofs cite instead of unfolding the meanings. -/

namespace Sys2Proof.Machine

/-! ## Every operation answers a next state -/

/-- No operation stops: each meaning ends in a next state, in every state. -/
theorem exec_total (i : Instr) (s : State) : ∃ t, exec i s = .next t := by
  cases i <;> exact ⟨_, rfl⟩

/-! ## Delivering a `DONE` -/

/-- What delivering can do: SDL latches, goes fatal, or the event is only recorded. -/
theorem deliver_cases (d : Done) (s : State) :
    (∃ v, s.sdlPc = .waitT ∧ d = .ok .temp v ∧
      s.deliver d = { s.emit (.done d) with tVal := v, sdlPc := .callH }) ∨
    (∃ v, s.sdlPc = .waitH ∧ d = .ok .humi v ∧
      s.deliver d = { s.emit (.done d) with hVal := v, sdlPc := .diag }) ∨
    (∃ e, s.sdlPc = .waitT ∧ d = .err .temp e ∧
      s.deliver d = (s.emit (.done d)).fatalEntry .temp e) ∨
    (∃ e, s.sdlPc = .waitH ∧ d = .err .humi e ∧
      s.deliver d = (s.emit (.done d)).fatalEntry .humi e) ∨
    (¬ (s.sdlPc = .waitT ∧ d.kind = .temp) ∧ ¬ (s.sdlPc = .waitH ∧ d.kind = .humi) ∧
      s.deliver d = s.emit (.done d)) := by
  rcases h : s.sdlPc <;> rcases d with ⟨k, v⟩ | ⟨k, e⟩ <;> cases k <;>
    simp [State.deliver, h, Done.kind]

/-! ## SPF's micro-operations -/

/-- A transaction's effect on the state: the answer is taken and one `BUS` event recorded. -/
abbrev State.afterBus (w : Bytes) (rlen : Nat) (s : State) : State :=
  s.afterAnswer.emit (.bus Config.rom.devId w rlen s.answer.n (answerBytes s.answer rlen))

/-- `WRCMD`: the command byte of the kind is written; a zero count fails with `E_CMD`. -/
theorem wrcmdRule_cases (s : State) :
    (failed s.answer = true ∧ wrcmdRule s =
      spfFail .eCmd (s.afterBus [s.cfg.configReg, commandOf s.cfg s.kind] 0)) ∨
    (failed s.answer = false ∧ wrcmdRule s =
      ({ s.afterBus [s.cfg.configReg, commandOf s.cfg s.kind] 0 with spfPc := .poll }, none)) := by
  rcases hk : s.kind <;> rcases hf : failed s.answer <;>
    simp [wrcmdRule, xferCmdt, xferCmdh, memWrite, busXfer, commandOf, hk, hf]

/-- `RDST` once the status read has been counted. -/
abbrev State.polled (s : State) : State :=
  { s.afterBus [s.cfg.statusReg] 1 with pollCnt := s.pollCnt + 1 }

/-- `RDST`: a zero count fails with `E_STATUS`; a clear ready bit ends the loop; a set one goes on, or fails with
`E_TIMEOUT` at the poll limit. -/
theorem rdstRule_cases (s : State) :
    (failed s.answer = true ∧ rdstRule s = spfFail .eStatus s.polled) ∨
    (failed s.answer = false ∧ busy s.answer.b0 = false ∧ rdstRule s =
      ({ s.polled with status := s.answer.b0, spfPc := .data }, none)) ∨
    (failed s.answer = false ∧ busy s.answer.b0 = true ∧ pollExpired s.cfg s.pollCnt = true ∧
      rdstRule s = spfFail .eTimeout { s.polled with status := s.answer.b0 }) ∨
    (failed s.answer = false ∧ busy s.answer.b0 = true ∧ pollExpired s.cfg s.pollCnt = false ∧
      rdstRule s = ({ s.polled with status := s.answer.b0, spfPc := .poll }, none)) := by
  have r : rdstRule s =
      if failed s.answer then spfFail .eStatus s.polled
      else if !busy s.answer.b0 then
        ({ s.polled with status := s.answer.b0, spfPc := .data }, none)
      else if pollExpired s.cfg s.pollCnt then
        spfFail .eTimeout { s.polled with status := s.answer.b0 }
      else ({ s.polled with status := s.answer.b0, spfPc := .poll }, none) := rfl
  rcases hf : failed s.answer <;> rcases hb : busy s.answer.b0 <;>
    rcases he : pollExpired s.cfg s.pollCnt <;> rw [hf, hb, he] at r <;>
    simp only [r, Bool.not_false, Bool.not_true, if_true, if_false, Bool.false_eq_true,
      reduceCtorEq, true_and, false_and, or_true, true_or, false_or]

/-- `RDDT`: a zero count fails with `E_DATA`; else the two bytes are accumulated. -/
theorem rddtRule_cases (s : State) :
    (failed s.answer = true ∧ rddtRule s = spfFail .eData (s.afterBus [s.cfg.dataReg] 2)) ∨
    (failed s.answer = false ∧ rddtRule s =
      ({ accumulate s.answer.b0 s.answer.b1 (s.afterBus [s.cfg.dataReg] 2) with spfPc := .conv },
        none)) := by
  rcases hf : failed s.answer <;> simp [rddtRule, xferData, memRead, busXfer, hf]

/-- A micro-operation that emits no `DONE` leaves every SDL register as it was and ends in a state of SPF of the same
side of the handshake. -/
theorem spfRule_none {s t : State} (h : spfRule s = (t, none)) :
    t.sdlPc = s.sdlPc ∧ t.armed = s.armed ∧ t.tmr = s.tmr ∧ t.tickPend = s.tickPend ∧
    t.indicator = s.indicator ∧ t.tVal = s.tVal ∧ t.hVal = s.hVal ∧ t.msg = s.msg ∧
    t.msgLen = s.msgLen ∧ t.fatalCause = s.fatalCause ∧ t.fatalKind = s.fatalKind ∧
    t.cfg = s.cfg ∧ t.kind = s.kind ∧ t.err = s.err ∧ t.plan = s.plan ∧ t.inbound = s.inbound := by
  have e := congrArg Prod.fst h
  have e2 := congrArg Prod.snd h
  rcases hp : s.spfPc <;> simp only [spfRule, hp] at e e2
  · subst e; simp [tglRule]
  · subst e; simp [rdidRule, xferId, memRead]
  · subst e; simp
  · rcases wrcmdRule_cases s with ⟨_, r⟩ | ⟨_, r⟩ <;> rw [r] at e e2
    · simp [spfFail] at e2
    · subst e; simp
  · rcases rdstRule_cases s with ⟨_, r⟩ | ⟨_, _, r⟩ | ⟨_, _, _, r⟩ | ⟨_, _, _, r⟩ <;> rw [r] at e e2
    · simp [spfFail] at e2
    · subst e; simp
    · simp [spfFail] at e2
    · subst e; simp
  · rcases rddtRule_cases s with ⟨_, r⟩ | ⟨_, r⟩ <;> rw [r] at e e2
    · simp [spfFail] at e2
    · subst e; simp
  · simp [convRule] at e2

/-- Where SPF goes in a micro-operation that emits no `DONE`, and what becomes of the bus handle and the poll count. -/
theorem spfRule_none_pc {s t : State} (h : spfRule s = (t, none)) :
    (s.spfPc = .prbTgl ∧ t.spfPc = .prbId ∧ t.busHeld = s.busHeld) ∨
    (s.spfPc = .prbId ∧ t.spfPc = .idle ∧ t.busHeld = false) ∨
    (s.spfPc = .idle ∧ t = s) ∨
    (s.spfPc = .cmd ∧ t.spfPc = .poll ∧ t.busHeld = s.busHeld ∧ t.pollCnt = s.pollCnt) ∨
    (s.spfPc = .poll ∧ t.spfPc = .data ∧ t.busHeld = s.busHeld) ∨
    (s.spfPc = .poll ∧ t.spfPc = .poll ∧ t.busHeld = s.busHeld ∧ t.pollCnt = s.pollCnt + 1 ∧
      pollExpired s.cfg s.pollCnt = false) ∨
    (s.spfPc = .data ∧ t.spfPc = .conv ∧ t.busHeld = s.busHeld) := by
  have e := congrArg Prod.fst h
  have e2 := congrArg Prod.snd h
  rcases hp : s.spfPc <;> simp only [spfRule, hp] at e e2
  · subst e; simp [tglRule]
  · subst e; simp [rdidRule]
  · subst e; simp
  · rcases wrcmdRule_cases s with ⟨_, r⟩ | ⟨_, r⟩ <;> rw [r] at e e2
    · simp [spfFail] at e2
    · subst e; simp
  · rcases rdstRule_cases s with ⟨_, r⟩ | ⟨_, _, r⟩ | ⟨_, _, _, r⟩ | ⟨_, _, hx, r⟩ <;> rw [r] at e e2
    · simp [spfFail] at e2
    · subst e; simp
    · simp [spfFail] at e2
    · subst e; simp [hx]
  · rcases rddtRule_cases s with ⟨_, r⟩ | ⟨_, r⟩ <;> rw [r] at e e2
    · simp [spfFail] at e2
    · subst e; simp
  · simp [convRule] at e2

/-- A micro-operation that emits `DONE` releases the bus, leaves SPF idle and leaves every SDL register to the delivery;
its `DONE` is of the kind measured, and tells what `err` holds. -/
theorem spfRule_some {s t : State} {d : Done} (h : spfRule s = (t, some d)) :
    t.spfPc = .idle ∧ t.busHeld = false ∧ d.kind = s.kind ∧ t.kind = s.kind ∧
    t.sdlPc = s.sdlPc ∧ t.armed = s.armed ∧ t.tmr = s.tmr ∧ t.tickPend = s.tickPend ∧
    t.indicator = s.indicator ∧ t.tVal = s.tVal ∧ t.hVal = s.hVal ∧ t.msg = s.msg ∧
    t.msgLen = s.msgLen ∧ t.fatalCause = s.fatalCause ∧ t.fatalKind = s.fatalKind ∧
    t.cfg = s.cfg ∧ t.plan = s.plan ∧ t.inbound = s.inbound ∧
    ((∃ e, d = .err s.kind e ∧ t.err = e ∧ e ≠ .eNone ∧ e ≠ .eDecode ∧
        (e = .eTimeout → s.cfg.pollLimit ≠ none)) ∨
     (s.spfPc = .conv ∧ t.err = s.err ∧ d = .ok s.kind (num s.kind (shr s.kind s.acc)))) := by
  have e := congrArg Prod.fst h
  have e2 := congrArg Prod.snd h
  rcases hp : s.spfPc <;> simp only [spfRule, hp] at e e2
  · simp at e2
  · simp at e2
  · simp at e2
  · rcases wrcmdRule_cases s with ⟨_, r⟩ | ⟨_, r⟩ <;> rw [r] at e e2
    · simp only [spfFail, Option.some.injEq] at e e2; subst e e2; simp [Done.kind]
    · simp at e2
  · rcases rdstRule_cases s with ⟨_, r⟩ | ⟨_, _, r⟩ | ⟨_, _, hx, r⟩ | ⟨_, _, _, r⟩ <;> rw [r] at e e2
    · simp only [spfFail, Option.some.injEq] at e e2; subst e e2; simp [Done.kind]
    · simp at e2
    · simp only [spfFail, Option.some.injEq] at e e2; subst e e2
      simp only [pollExpired] at hx
      simp [Done.kind]; intro hl; simp [hl] at hx
    · simp at e2
  · rcases rddtRule_cases s with ⟨_, r⟩ | ⟨_, r⟩ <;> rw [r] at e e2
    · simp only [spfFail, Option.some.injEq] at e e2; subst e e2; simp [Done.kind]
    · simp at e2
  · simp only [convRule, Option.some.injEq] at e e2; subst e e2; simp [Done.kind]

/-! ## The effects of the operations -/

/-- Every effect an operation can have, one constructor each, with the condition it happens under. -/
inductive Effect (s : State) : State → Prop where
  | unchanged : Effect s s
  | transaction (w : Bytes) (rlen : Nat) (hw : (w, rlen) ∈ transactions s.cfg) : Effect s (s.afterBus w rlen)
  | spf : Effect s (settle (spfRule s))
  | callT (h : s.sdlPc = .callT) (hi : s.spfPc = .idle) :
      Effect s { (s.emit (.start .temp)).accept .temp with sdlPc := .waitT }
  | callH (h : s.sdlPc = .callH) (hi : s.spfPc = .idle) :
      Effect s { (s.emit (.start .humi)).accept .humi with sdlPc := .waitH }
  | bprobe (h : s.sdlPc = .bootProbe) (hi : s.spfPc = .idle) : Effect s { s with sdlPc := .bootRinit }
  | rinit (h : s.sdlPc = .bootRinit) : Effect s
      { s.emit (.radioInit Config.rom.radioFreq s.cfg.paBoost s.cfg.rxCrc) with sdlPc := .bootRrecv }
  | rrecv (h : s.sdlPc = .bootRrecv) :
      Effect s { s.emit (.radioReceive Config.rom.ownAddr) with sdlPc := .bootArm }
  | arm (h : s.sdlPc = .bootArm) :
      Effect s { s with tmr := BitVec.ofNat 9 Config.rom.delay, armed := true, sdlPc := .park }
  | park (h : s.sdlPc = .park) (hp : s.tickPend = true) : Effect s { s with tickPend := false, sdlPc := .led1 }
  | ledon1 (h : s.sdlPc = .led1) : Effect s { s.setIndicator true with sdlPc := .callT }
  | diag (h : s.sdlPc = .diag) : Effect s
      { s.afterTimestamp.emit (.diagSample s.timestamp s.tVal s.hVal) with sdlPc := .send }
  | send (h : s.sdlPc = .send) : Effect s
      { (s.storeMessage (formatMessage s.cfg s.tVal s.hVal)).emit
          (.radioSend Config.rom.gwAddr (formatMessage s.cfg s.tVal s.hVal)) with sdlPc := .led2 }
  | ledon2 (h : s.sdlPc = .led2) : Effect s { s.setIndicator true with sdlPc := .park }
  | tuUnarmed (h : s.armed = false) : Effect s (s.emit .tu)
  | tuFires (h : s.armed = true) (h1 : s.tmr = 1) :
      Effect s ({ s.emit .tu with tmr := BitVec.ofNat 9 Config.rom.period }).raiseTick
  | tuCounts (h : s.armed = true) (h1 : s.tmr ≠ 1) : Effect s { s.emit .tu with tmr := s.tmr - 1 }
  | tick (h : s.armed = true) : Effect s s.raiseTick
  | txdone : Effect s ((s.emit .txdone).setIndicator false)
  | rxdata : Effect s
      (((s.emit (.rxdata s.inbound)).afterTimestamp).emit (receiveLine s.cfg s.timestamp s.inbound))
  | acc (b0 b1 : Byte) : Effect s (accumulate b0 b1 s)
  | shroff (k : Kind) : Effect s (shiftOffset k s)

/-- `CALL` and `START`. -/
theorem callStart_effect (s : State) :
    Effect s (callStart .temp .callT .waitT s) ∧ Effect s (callStart .humi .callH .waitH s) := by
  constructor <;> unfold callStart <;> split
  · exact .callT (by tauto) (by tauto)
  · exact .unchanged
  · exact .callH (by tauto) (by tauto)
  · exact .unchanged

/-- `WAIT` is SPF's own micro-operation, delivered, or nothing. -/
theorem waitDone_cases (k : Kind) (wait : SdlPc) (s : State) :
    (waitDone k wait s = s) ∨ (waitDone k wait s = settle (spfRule s)) := by
  unfold waitDone
  split
  · split
    · rename_i h
      split
      · right; simp [settle, h]
      · exact .inl rfl
    · exact .inl rfl
  · exact .inl rfl

theorem waitDone_effect (k : Kind) (wait : SdlPc) (s : State) : Effect s (waitDone k wait s) := by
  rcases waitDone_cases k wait s with h | h <;> rw [h]
  · exact .unchanged
  · exact .spf

/-- An SPF micro-operation run at its own pc is the one `spf_pc` selects. -/
theorem spf_effect {s : State} {pc : SpfPc} {r : State × Option Done}
    (h : s.spfPc = pc → spfRule s = r) : Effect s (if s.spfPc = pc then settle r else s) := by
  split
  · rename_i hp
    rw [← h hp]; exact .spf
  · exact .unchanged

/-- What an operation can do. -/
theorem exec_effect {i : Instr} {s t : State} (h : exec i s = .next t) : Effect s t := by
  cases i <;> simp only [exec] at h
  case btCmdt => cases h; exact .transaction _ _ (by simp [transactions])
  case btCmdh => cases h; exact .transaction _ _ (by simp [transactions])
  case btStat => cases h; exact .transaction _ _ (by simp [transactions])
  case btData => cases h; exact .transaction _ _ (by simp [transactions])
  case btId => cases h; exact .transaction _ _ (by simp [transactions])
  case startT => cases h; exact (callStart_effect s).1
  case startH => cases h; exact (callStart_effect s).2
  case callT => cases h; exact (callStart_effect s).1
  case callH => cases h; exact (callStart_effect s).2
  case tgl => cases h; exact spf_effect (r := (tglRule s, none)) (fun hp => by simp [spfRule, hp])
  case rdid => cases h; exact spf_effect (r := (rdidRule s, none)) (fun hp => by simp [spfRule, hp])
  case wrcmd => cases h; exact spf_effect (fun hp => by simp [spfRule, hp])
  case rdst => cases h; exact spf_effect (fun hp => by simp [spfRule, hp])
  case rddt => cases h; exact spf_effect (fun hp => by simp [spfRule, hp])
  case conv => cases h; exact spf_effect (fun hp => by simp [spfRule, hp])
  case waitT => cases h; exact waitDone_effect _ _ s
  case waitH => cases h; exact waitDone_effect _ _ s
  case halt => cases h; exact .unchanged
  case bprobe => cases h; split; exacts [.bprobe (by tauto) (by tauto), .unchanged]
  case rinit => cases h; split; exacts [.rinit ‹_›, .unchanged]
  case rrecv => cases h; split; exacts [.rrecv ‹_›, .unchanged]
  case arm => cases h; split; exacts [.arm ‹_›, .unchanged]
  case park => cases h; split; exacts [.park (by tauto) (by tauto), .unchanged]
  case ledon1 => cases h; split; exacts [.ledon1 ‹_›, .unchanged]
  case diag => cases h; split; exacts [.diag ‹_›, .unchanged]
  case send => cases h; split; exacts [.send ‹_›, .unchanged]
  case ledon2 => cases h; split; exacts [.ledon2 ‹_›, .unchanged]
  case tu =>
    cases h; split
    · split
      · exact .tuFires ‹_› ‹_›
      · exact .tuCounts ‹_› ‹_›
    · rename_i hu; exact .tuUnarmed (by simpa using hu)
  case tick => cases h; split; exacts [.tick ‹_›, .unchanged]
  case txdone => cases h; exact .txdone
  case rxdata => cases h; exact .rxdata
  case acc => cases h; exact .acc _ _
  case shroff => cases h; exact .shroff _

/-! ## A step -/

/-- What a step can do: reset, leave the machine as it is, or run an operation. -/
theorem step_cases {s t : State} (h : step s = .next t) :
    (s.nextSlot = .hostReset ∧ t = s.afterSlot.hostReset) ∨ t = s.afterSlot ∨
    (∃ i c, s.fetch = some c ∧ decode s.cfg c.fmt c.bytes = .ok (i, []) ∧
      exec i s.afterSlot = .next t) := by
  unfold step at h
  split at h
  · rename_i hf
    left
    refine ⟨?_, by cases h; rfl⟩
    unfold State.fetch at hf
    split at hf <;> simp_all
  · rename_i c hf
    split at h
    · exact .inr (.inr ⟨_, c, hf, ‹_›, h⟩)
    · cases h
    · cases h; exact .inr (.inl rfl)
    · cases h

/-- An invariant that taking a slot, the host's reset and every effect keep is kept by every step. -/
theorem step_keeps {P : State → Prop} (hslot : ∀ s, P s → P s.afterSlot)
    (hreset : ∀ s, P s → P s.hostReset) (heffect : ∀ s t, P s → Effect s t → P t)
    {s t : State} (hs : P s) (h : step s = .next t) : P t := by
  rcases step_cases h with ⟨-, rfl⟩ | rfl | ⟨i, c, -, -, he⟩
  · exact hreset _ (hslot _ hs)
  · exact hslot _ hs
  · exact heffect _ _ (hslot _ hs) (exec_effect he)

/-- What settling an SPF micro-operation can do: go on without a `DONE`, or deliver one. -/
theorem settle_cases (s : State) :
    (∃ t, spfRule s = (t, none) ∧ settle (spfRule s) = t) ∨
    (∃ t d, spfRule s = (t, some d) ∧ settle (spfRule s) = t.deliver d) := by
  rcases h : spfRule s with ⟨t, _ | d⟩
  · exact .inl ⟨t, rfl, rfl⟩
  · exact .inr ⟨t, d, rfl, rfl⟩

/-- An SPF micro-operation, delivered, changes none of the registers of the timer, the indicator and the message buffer,
nor the parameters. -/
theorem settle_frame (s : State) :
    let u := settle (spfRule s)
    u.tmr = s.tmr ∧ u.tickPend = s.tickPend ∧ u.indicator = s.indicator ∧ u.msg = s.msg ∧
    u.msgLen = s.msgLen ∧ u.cfg = s.cfg ∧ u.plan = s.plan ∧ u.inbound = s.inbound ∧
    u.kind = s.kind := by
  intro u
  rcases settle_cases s with ⟨t, hr, e⟩ | ⟨t, d, hr, e⟩
  · obtain ⟨-, -, h1, h2, h3, -, -, h4, h5, -, -, h6, h7, -, h8, h9⟩ := spfRule_none hr
    simp only [u, e]
    exact ⟨h1, h2, h3, h4, h5, h6, h8, h9, h7⟩
  · obtain ⟨-, -, -, h7, -, -, h1, h2, h3, -, -, h4, h5, -, -, h6, h8, h9, -⟩ := spfRule_some hr
    simp only [u, e]
    rcases deliver_cases d t with ⟨v, -, -, e⟩ | ⟨v, -, -, e⟩ | ⟨v, -, -, e⟩ | ⟨v, -, -, e⟩ | ⟨-, -, e⟩ <;>
      rw [e] <;> exact ⟨h1, h2, h3, h4, h5, h6, h8, h9, h7⟩

/-- What a delivered SPF micro-operation does to SDL, to `err` and to SPF's idleness: it goes on without a `DONE`; the
temperature or the humidity is latched; the failure is fatal; or SDL waits for no such `DONE`. -/
theorem settle_sdl (s : State) :
    let u := settle (spfRule s)
    ((spfRule s).2 = none ∧ u = (spfRule s).1 ∧ u.sdlPc = s.sdlPc ∧ u.armed = s.armed ∧
      u.tVal = s.tVal ∧ u.hVal = s.hVal ∧ u.fatalCause = s.fatalCause ∧ u.fatalKind = s.fatalKind ∧
      u.err = s.err) ∨
    (u.spfPc = .idle ∧ u.busHeld = false ∧
      ((s.sdlPc = .waitT ∧ s.kind = .temp ∧ s.spfPc = .conv ∧ u.sdlPc = .callH ∧
        u.tVal = num .temp (shr .temp s.acc) ∧ u.hVal = s.hVal ∧ u.armed = s.armed ∧ u.err = s.err ∧
        u.fatalCause = s.fatalCause ∧ u.fatalKind = s.fatalKind) ∨
       (s.sdlPc = .waitH ∧ s.kind = .humi ∧ s.spfPc = .conv ∧ u.sdlPc = .diag ∧
        u.hVal = num .humi (shr .humi s.acc) ∧ u.tVal = s.tVal ∧ u.armed = s.armed ∧ u.err = s.err ∧
        u.fatalCause = s.fatalCause ∧ u.fatalKind = s.fatalKind) ∨
       (∃ e, ((s.sdlPc = .waitT ∧ s.kind = .temp) ∨ (s.sdlPc = .waitH ∧ s.kind = .humi)) ∧
        u.sdlPc = .fatal ∧ u.armed = false ∧ u.err = e ∧ u.fatalCause = e ∧ u.fatalKind = s.kind ∧
        u.tVal = s.tVal ∧ u.hVal = s.hVal ∧ e ≠ .eNone ∧ e ≠ .eDecode ∧
        (e = .eTimeout → s.cfg.pollLimit ≠ none)) ∨
       (¬ (s.sdlPc = .waitT ∧ s.kind = .temp) ∧ ¬ (s.sdlPc = .waitH ∧ s.kind = .humi) ∧
        SpfPc.measuring s.spfPc = true ∧ u.sdlPc = s.sdlPc ∧ u.armed = s.armed ∧ u.tVal = s.tVal ∧
        u.hVal = s.hVal ∧ u.fatalCause = s.fatalCause ∧ u.fatalKind = s.fatalKind))) := by
  intro u
  rcases settle_cases s with ⟨t, hr, e⟩ | ⟨t, d, hr, e⟩
  · left
    obtain ⟨h1, h2, -, -, -, h3, h4, -, -, h5, h6, -, -, h7, -⟩ := spfRule_none hr
    simp only [u, e, hr]
    exact ⟨trivial, trivial, h1, h2, h3, h4, h5, h6, h7⟩
  · right
    have hm : SpfPc.measuring s.spfPc = true := by
      rcases hp : s.spfPc <;> simp [spfRule, hp] at hr <;> rfl
    obtain ⟨h1, h2, h3, h4, h5, h6, -, -, -, h7, h8, -, -, h9, h10, -, -, -, hd⟩ := spfRule_some hr
    simp only [u, e]
    rcases deliver_cases d t with ⟨v, hs, hk, e⟩ | ⟨v, hs, hk, e⟩ | ⟨c, hs, hk, e⟩ | ⟨c, hs, hk, e⟩ |
      ⟨hs, hk, e⟩ <;> rw [e]
    · refine ⟨h1, h2, .inl ?_⟩
      subst hk
      rcases hd with ⟨c, hd, -⟩ | ⟨hp, he, hd⟩
      · cases hd
      · injection hd with hk hv
        exact ⟨h5 ▸ hs, hk.symm, hp, rfl, by simpa [← hk] using hv, h8, h6, he, h9, h10⟩
    · refine ⟨h1, h2, .inr (.inl ?_)⟩
      subst hk
      rcases hd with ⟨c, hd, -⟩ | ⟨hp, he, hd⟩
      · cases hd
      · injection hd with hk hv
        exact ⟨h5 ▸ hs, hk.symm, hp, rfl, by simpa [← hk] using hv, h7, h6, he, h9, h10⟩
    · refine ⟨h1, h2, .inr (.inr (.inl ⟨c, ?_⟩))⟩
      subst hk
      rcases hd with ⟨c', hd, hc, hn, hn', ht⟩ | ⟨-, -, hd⟩
      · injection hd with hk hv
        subst hv
        exact ⟨.inl ⟨h5 ▸ hs, hk.symm⟩, rfl, rfl, hc, rfl, hk, h7, h8, hn, hn', ht⟩
      · cases hd
    · refine ⟨h1, h2, .inr (.inr (.inl ⟨c, ?_⟩))⟩
      subst hk
      rcases hd with ⟨c', hd, hc, hn, hn', ht⟩ | ⟨-, -, hd⟩
      · injection hd with hk hv
        subst hv
        exact ⟨.inr ⟨h5 ▸ hs, hk.symm⟩, rfl, rfl, hc, rfl, hk, h7, h8, hn, hn', ht⟩
      · cases hd
    · refine ⟨h1, h2, .inr (.inr (.inr ?_))⟩
      rw [h3, h5] at hs hk
      exact ⟨hs, hk, hm, h5, h6, h7, h8, h9, h10⟩

/-! ## The events of an SPF micro-operation -/

/-- A `BUS` event the block can record: one of the five transactions, to `DEV_ID`, with the bytes it asked for. -/
abbrev isTransaction (p : Params) (e : Event) : Prop :=
  ∃ w rlen n r, e = .bus Config.rom.devId w rlen n r ∧ (w, rlen) ∈ transactions p ∧ r.length = rlen

theorem afterBus_event {s : State} {w : Bytes} {rlen : Nat} (h : (w, rlen) ∈ transactions s.cfg) :
    ∃ e, (s.afterBus w rlen).trace = s.trace ++ [e] ∧ isTransaction s.cfg e := by
  refine ⟨_, rfl, _, _, _, _, rfl, h, ?_⟩
  simp only [transactions, List.mem_cons, Prod.mk.injEq, List.not_mem_nil, or_false] at h
  rcases h with ⟨-, rfl⟩ | ⟨-, rfl⟩ | ⟨-, rfl⟩ | ⟨-, rfl⟩ | ⟨-, rfl⟩ <;> rfl

theorem deliver_trace (d : Done) (s : State) : (s.deliver d).trace = s.trace ++ [.done d] := by
  rcases deliver_cases d s with ⟨v, -, -, e⟩ | ⟨v, -, -, e⟩ | ⟨v, -, -, e⟩ | ⟨v, -, -, e⟩ | ⟨-, -, e⟩ <;> rw [e] <;> rfl

/-- The events of SPF's own part of a micro-operation: nothing, the line toggle, or one transaction. -/
theorem spfRule_trace (s : State) : ∃ es, (spfRule s).1.trace = s.trace ++ es ∧
    (es = [] ∨ es = [.lineToggle] ∨ ∃ e, es = [e] ∧ isTransaction s.cfg e) := by
  rcases hp : s.spfPc <;> simp only [spfRule, hp]
  · exact ⟨[.lineToggle], rfl, .inr (.inl rfl)⟩
  · obtain ⟨e, h1, h2⟩ := afterBus_event (s := s) (w := [s.cfg.idReg]) (rlen := 1) (by simp [transactions])
    exact ⟨[e], h1, .inr (.inr ⟨e, rfl, h2⟩)⟩
  · exact ⟨[], by simp, .inl rfl⟩
  · obtain ⟨e, h1, h2⟩ := afterBus_event (s := s) (w := [s.cfg.configReg, commandOf s.cfg s.kind]) (rlen := 0)
      (by cases s.kind <;> simp [transactions, commandOf])
    refine ⟨[e], ?_, .inr (.inr ⟨e, rfl, h2⟩)⟩
    rcases wrcmdRule_cases s with ⟨-, r⟩ | ⟨-, r⟩ <;> rw [r] <;> exact h1
  · obtain ⟨e, h1, h2⟩ := afterBus_event (s := s) (w := [s.cfg.statusReg]) (rlen := 1) (by simp [transactions])
    refine ⟨[e], ?_, .inr (.inr ⟨e, rfl, h2⟩)⟩
    rcases rdstRule_cases s with ⟨-, r⟩ | ⟨-, -, r⟩ | ⟨-, -, -, r⟩ | ⟨-, -, -, r⟩ <;> rw [r] <;> exact h1
  · obtain ⟨e, h1, h2⟩ := afterBus_event (s := s) (w := [s.cfg.dataReg]) (rlen := 2) (by simp [transactions])
    refine ⟨[e], ?_, .inr (.inr ⟨e, rfl, h2⟩)⟩
    rcases rddtRule_cases s with ⟨-, r⟩ | ⟨-, r⟩ <;> rw [r] <;> exact h1
  · exact ⟨[], by simp [convRule, shiftOffset], .inl rfl⟩

/-- The events of an SPF micro-operation, delivered: SPF's own, then its `DONE` if it emits one. -/
theorem settle_trace (s : State) : ∃ es, (settle (spfRule s)).trace = s.trace ++ es ++
      ((spfRule s).2.map Event.done).toList ∧
    (es = [] ∨ es = [.lineToggle] ∨ ∃ e, es = [e] ∧ isTransaction s.cfg e) := by
  obtain ⟨es, h1, h2⟩ := spfRule_trace s
  refine ⟨es, ?_, h2⟩
  rcases settle_cases s with ⟨t, hr, e⟩ | ⟨t, d, hr, e⟩ <;> rw [e] <;> rw [hr] at h1 ⊢
  · simpa using h1
  · rw [deliver_trace, h1]; rfl

/-- A micro-operation emits a `DONE` only inside a measurement. -/
theorem spfRule_some_measuring {s : State} {d : Done} (h : (spfRule s).2 = some d) :
    SpfPc.measuring s.spfPc = true := by
  rcases hp : s.spfPc <;> simp [spfRule, hp] at h <;> rfl

/-- An SPF micro-operation leaves the answers alone or takes one. -/
theorem settle_answers (s : State) :
    (settle (spfRule s)).answers = s.answers ∨ (settle (spfRule s)).answers = s.answers.tail := by
  have key : (spfRule s).1.answers = s.answers ∨ (spfRule s).1.answers = s.answers.tail := by
    rcases hp : s.spfPc <;> simp only [spfRule, hp]
    · exact .inl rfl
    · exact .inr rfl
    · exact .inl trivial
    · rcases wrcmdRule_cases s with ⟨-, r⟩ | ⟨-, r⟩ <;> rw [r] <;> exact .inr rfl
    · rcases rdstRule_cases s with ⟨-, r⟩ | ⟨-, -, r⟩ | ⟨-, -, -, r⟩ | ⟨-, -, -, r⟩ <;> rw [r] <;> exact .inr rfl
    · rcases rddtRule_cases s with ⟨-, r⟩ | ⟨-, r⟩ <;> rw [r] <;> exact .inr rfl
    · exact .inl rfl
  rcases settle_cases s with ⟨t, hr, e⟩ | ⟨t, d, hr, e⟩ <;> rw [e] <;> rw [hr] at key
  · exact key
  · rcases deliver_cases d t with ⟨v, -, -, e⟩ | ⟨v, -, -, e⟩ | ⟨v, -, -, e⟩ | ⟨v, -, -, e⟩ | ⟨-, -, e⟩ <;> rw [e] <;> exact key

/-- What `RXDATA` logs: the decoded line, or the decode error. -/
theorem receiveLine_cases (p : Params) (ts : Nat) (pkt : Packet) :
    receiveLine p ts pkt = .diagRx ts pkt.address pkt.snr pkt.packetRssi pkt.ambientRssi pkt.payload.length
      pkt.payload ∨ receiveLine p ts pkt = .diagDecodeError := by
  unfold receiveLine; split
  · exact .inl rfl
  · exact .inr rfl

end Sys2Proof.Machine
end

