-- ==== Sys2Proof/Laws/Run.lean ====
section
/-! SUPPORT. Runs of several steps, and what one step does on each kind of turn, said on the state with its slot
taken. -/

namespace Sys2Proof.Machine

theorem run_zero (s : State) : run 0 s = .next s := rfl

theorem run_succ {n : Nat} {s t : State} (h : step s = .next t) : run (n + 1) s = run n t := by
  simp only [run, h]

theorem run_add {m n : Nat} {s t : State} (h : run m s = .next t) : run (m + n) s = run n t := by
  induction m generalizing s with
  | zero => cases h; rw [Nat.zero_add]
  | succ m ih =>
    rw [Nat.add_right_comm]
    cases hs : step s with
    | next u => rw [run_succ hs] at h ⊢; exact ih h
    | fault r => simp only [run, hs] at h; cases h
    | refused r => simp only [run, hs] at h; cases h

theorem core_next (M : Host.Core) (n : Nat) (s t : M.State) (h : M.step s = .next t) :
    M.run (n + 1) s = M.run n t := by
  rw [Host.Core.run, h]

theorem core_fault (M : Host.Core) (n : Nat) (s : M.State) (r : M.Fault) (h : M.step s = .fault r) :
    M.run (n + 1) s = .fault r := by
  rw [Host.Core.run, h]

theorem core_refused (M : Host.Core) (n : Nat) (s : M.State) (r : M.Refusal) (h : M.step s = .refused r) :
    M.run (n + 1) s = .refused r := by
  rw [Host.Core.run, h]

/-- `run` is the host's run of this machine. -/
theorem run_eq_core (n : Nat) (s : State) : run n s = Host.Core.run Sys2Proof.core n s := by
  induction n generalizing s with
  | zero => rfl
  | succ n ih =>
    unfold run
    cases h : step s with
    | next t => exact (ih t).trans (core_next Sys2Proof.core n s t h).symm
    | fault r => exact (core_fault Sys2Proof.core n s r h).symm
    | refused r => exact (core_refused Sys2Proof.core n s r h).symm

/-- The micro-operation `spf_pc` selects is SPF's rule, its `DONE` delivered. -/
theorem exec_spf {s : State} {i : Instr} (h : SpfPc.operation s.spfPc = some i) :
    exec i s = .next (settle (spfRule s)) := by
  rcases hp : s.spfPc <;> rw [hp] at h <;> cases h <;>
    simp [exec, execTgl, execRdid, execWrcmd, execRdst, execRddt, execConv, hp, spfRule] <;> simp [settle]

/-! ## One step, by the slot at the head of the plan -/

theorem afterSlot_turn {s : State} {τ : Turn} {rest : List Slot} (h : s.plan = .turn τ :: rest)
    (hτ : ∀ p, τ ≠ .rxdata p) : s.afterSlot = { s with plan := rest } := by
  have hd : Slot.delivered s.inbound (.turn τ) = s.inbound := by
    cases τ <;> first | rfl | exact absurd rfl (hτ _)
  simp [State.afterSlot, State.nextSlot, h, hd]

theorem fetch_turn {s : State} {τ : Turn} {rest : List Slot} (h : s.plan = .turn τ :: rest) :
    s.fetch = some (turnCode s τ) := by
  simp [State.fetch, State.nextSlot, h]

/-- SPF's turn runs the micro-operation `spf_pc` selects and delivers its `DONE`. -/
theorem step_spf {s : State} {rest : List Slot} (h : s.plan = .turn .spf :: rest) :
    step s = .next (settle (spfRule { s with plan := rest })) := by
  rw [← afterSlot_turn h (by simp), step, fetch_turn h]
  have hc : ∀ pc, s.spfPc = pc → turnCode s .spf = ⟨.uspf, [BitVec.ofNat 8 pc.code]⟩ := by rintro _ rfl; rfl
  have hp : s.afterSlot.spfPc = s.spfPc := rfl
  rcases hq : s.spfPc <;> rw [hq] at hp <;> rw [hc _ hq] <;> simp only [spfRule, hp]
  · show exec .tgl s.afterSlot = _
    simp only [exec, execTgl, hp, if_true, settle]
  · show exec .rdid s.afterSlot = _
    simp only [exec, execRdid, hp, if_true, settle]
  · rfl
  · show exec .wrcmd s.afterSlot = _
    simp only [exec, execWrcmd, hp, if_true]
  · show exec .rdst s.afterSlot = _
    simp only [exec, execRdst, hp, if_true]
  · show exec .rddt s.afterSlot = _
    simp only [exec, execRddt, hp, if_true]
  · show exec .conv s.afterSlot = _
    simp only [exec, execConv, hp, if_true]

/-- SDL's turn runs the operation `sdl_pc` selects. -/
theorem step_sdl {s : State} {rest : List Slot} (h : s.plan = .turn .sdl :: rest) :
    step s = exec (SdlPc.operation s.sdlPc) { s with plan := rest } := by
  rw [← afterSlot_turn h (by simp), step, fetch_turn h]
  have hc : ∀ pc, s.sdlPc = pc → turnCode s .sdl = ⟨.usdl, [BitVec.ofNat 8 pc.code]⟩ := by rintro _ rfl; rfl
  rcases hq : s.sdlPc <;> rw [hc _ hq] <;> rfl

theorem step_tu {s : State} {rest : List Slot} (h : s.plan = .turn .tu :: rest) :
    step s = exec .tu { s with plan := rest } := by
  rw [← afterSlot_turn h (by simp), step, fetch_turn h]; rfl

theorem step_txdone {s : State} {rest : List Slot} (h : s.plan = .turn .txdone :: rest) :
    step s = exec .txdone { s with plan := rest } := by
  rw [← afterSlot_turn h (by simp), step, fetch_turn h]; rfl

end Sys2Proof.Machine
end

