-- ==== Sys2Proof/Tests/Slice0.lean ====
section
/-! SUPPORT. The model's own tests: the smoke test of the well-formedness checks, the decoding of words written out from
the encodings of 30_encoding.md, single steps of 95_test_vectors.md (each named by its vector's id), and for every
statement with hypotheses a concrete state and operands that meet them. -/

namespace Sys2Proof.Tests

open Sys2Proof Sys2Proof.Machine

/-! ## Helpers -/

/-- The configuration of 95_test_vectors.md, with values for the two open booleans. -/
def params : Params := { Config.defaults with paBoost := false, rxCrc := true, toggleShape := 0 }

def base : State := { State.reset with cfg := params }

/-- A state with the two program counters and the bus agent's next answers. -/
def at_ (spf : SpfPc) (sdl : SdlPc) (answers : List BusAnswer) : State :=
  { base with spfPc := spf, sdlPc := sdl, answers := answers, busHeld := spf != .idle }

/-- What `f` reads of the state after the operation `i`. -/
def after {α : Type} (i : Instr) (s : State) (f : State → α) : Option α :=
  match exec i s with
  | .next t => some (f t)
  | _ => none

/-- What `f` reads of the state after `n` steps. -/
def afterSteps {α : Type} (n : Nat) (s : State) (f : State → α) : Option α :=
  match run n s with
  | .next t => some (f t)
  | _ => none

/-! ## Well-formedness smoke: each check accepts and refuses -/

theorem test_params_wf : Params.wf params = true := by decide
theorem test_params_wf_refuses_equal_commands :
    Params.wf { params with cmdMeasureHumi := params.cmdMeasureTemp } = false := by decide
theorem test_params_wf_refuses_limit_zero : Params.wf { params with pollLimit := some 0 } = false := by decide
theorem test_instr_wf_refuses_humidity_command :
    Instr.wf { params with cmdMeasureHumi := params.cmdMeasureTemp } .btCmdh = false := by decide
theorem test_instr_wf_refuses_identifier_read :
    Instr.wf { params with idReg := params.statusReg } .btId = false := by decide
theorem test_memory_wf_refuses :
    Memory.wf [(3, 1), (3, 2)] = false ∧ Memory.wf [(4, 1), (3, 2)] = false ∧ Memory.wf [(3, 0)] = false ∧
    Memory.wf [(0, 1), (12, 2)] = true := by decide

/-! ## Decoding, words written out from 30_encoding.md -/

/-- V4.1 to V4.5, R111. -/
theorem test_decode_bus :
    decode params .busW2 [0b00000011, 0b00010001] = .ok (.btCmdt, []) ∧
    decode params .busW2 [0b00000011, 0b00000001] = .ok (.btCmdh, []) ∧
    decode params .busW1R1 [0b00000000] = .ok (.btStat, []) ∧
    decode params .busW1R2 [0b00000001] = .ok (.btData, []) ∧
    decode params .busW1R1 [0b00010001] = .ok (.btId, []) := ⟨rfl, rfl, rfl, rfl, rfl⟩
/-- R96. -/
theorem test_decode_cmd :
    decode params .cmd [0b0] = .ok (.startT, []) ∧ decode params .cmd [0b1] = .ok (.startH, []) := ⟨rfl, rfl⟩
/-- R98. -/
theorem test_decode_uspf :
    [0b000, 0b001, 0b011, 0b100, 0b101, 0b110].map (fun b => decode params .uspf [b]) =
      [Instr.tgl, .rdid, .wrcmd, .rdst, .rddt, .conv].map (fun i => .ok (i, [])) := rfl
/-- R99. -/
theorem test_decode_usdl :
    [0b0000, 0b0001, 0b0010, 0b0011, 0b0100, 0b0101, 0b0110].map (fun b => decode params .usdl [b]) =
      [Instr.bprobe, .rinit, .rrecv, .arm, .park, .ledon1, .callT].map (fun i => .ok (i, [])) ∧
    [0b0111, 0b1000, 0b1001, 0b1010, 0b1011, 0b1100, 0b1101].map (fun b => decode params .usdl [b]) =
      [Instr.waitT, .callH, .waitH, .diag, .send, .ledon2, .halt].map (fun i => .ok (i, [])) := ⟨rfl, rfl⟩
/-- R100. -/
theorem test_decode_evt :
    [0b00, 0b01, 0b10, 0b11].map (fun b => decode params .evt [b]) =
      [Instr.tu, .tick, .txdone, .rxdata].map (fun i => .ok (i, [])) := rfl
/-- R90, the pattern `s k`; the bytes after an `ACC` code are its operands. -/
theorem test_decode_stage :
    decode params .stage [0b00, 0x19, 0x40] = .ok (.acc .temp 0x19 0x40, []) ∧
    decode params .stage [0b01, 0x0C, 0x80] = .ok (.acc .humi 0x0C 0x80, []) ∧
    decode params .stage [0b10] = .ok (.shroff .temp, []) ∧
    decode params .stage [0b11] = .ok (.shroff .humi, []) := ⟨rfl, rfl, rfl, rfl⟩
/-- Rejected by name. -/
theorem test_decode_rejects :
    decode params .uspf [2] = .error .spfIdle ∧ decode params .uspf [7] = .error .unassigned ∧
    decode params .usdl [14] = .error .unassigned ∧ decode params .usdl [15] = .error .unassigned ∧
    decode params .cmd [2] = .error .unassigned ∧ decode params .stage [0, 0x19] = .error .truncated ∧
    decode params .stage [1] = .error .truncated ∧ decode params .busW2 [3] = .error .truncated ∧
    decode params .busW2 [3, 2] = .error .unassigned :=
  ⟨rfl, rfl, rfl, rfl, rfl, rfl, rfl, rfl, rfl⟩
/-- Rows of opcode_table.json whose word names one row alone. -/
theorem test_table_words :
    decodeTableWord 16 0x0311 = some .btCmdt ∧ decodeTableWord 16 0x0301 = some .btCmdh ∧
    decodeTableWord 8 0x00 = some .btStat ∧ decodeTableWord 8 0x11 = some .btId ∧
    decodeTableWord 8 0x01 = some .btData ∧ decodeTableWord 8 0x0D = some .halt := ⟨rfl, rfl, rfl, rfl, rfl, rfl⟩
/-- A word placed where the next step takes it is run by the next step. -/
theorem test_fetch_word :
    afterSteps 1 (base.withFetchWord 16 0x0311) (fun t => t.trace.length) = some 1 ∧
    afterSteps 1 (base.withFetchWord 8 0x06) (fun t => t.spfPc) = some .idle := ⟨rfl, rfl⟩

/-! ## Converter, section 3 -/

/-- V3.1 to V3.7, V3.10 (bit 15 is not a sign). -/
theorem test_convert_temperature :
    convertBytes .temp 0x19 0x40 = 16 ∧ convertBytes .temp 0x00 0x00 = -1600 ∧
    convertBytes .temp 0xFF 0xFF = 14783 ∧ convertBytes .temp 0x00 0x03 = -1600 ∧
    convertBytes .temp 0x00 0x04 = -1599 ∧ convertBytes .temp 0x18 0xFC = -1 ∧
    convertBytes .temp 0x80 0x00 = 6592 := by decide
/-- V3.20 to V3.24, V3.28, V3.31. -/
theorem test_convert_humidity :
    convertBytes .humi 0x0C 0x80 = -184 ∧ convertBytes .humi 0x00 0x00 = -384 ∧
    convertBytes .humi 0xFF 0xFF = 3711 ∧ convertBytes .humi 0x00 0x0F = -384 ∧
    convertBytes .humi 0x00 0x10 = -383 ∧ convertBytes .humi 0x80 0x00 = 1664 ∧
    convertBytes .humi 0x19 0x40 = 20 := by decide
/-- R150: the kind bit is ignored, the first byte is the high half. -/
theorem test_acc : after (.acc .humi 0x19 0x40) base (fun t => (t.acc, t.raw)) = some (6464, 0) := by decide
/-- R151, R152. -/
theorem test_shroff :
    after (.shroff .humi) { base with acc := 3200 } (fun t => (t.raw, t.val, t.acc)) = some (200, -184, 3200) := by
  decide

/-! ## Bus transactions as rows, V4.1 to V4.5 -/

theorem test_bt_cmdt : after .btCmdt (at_ .idle .park [⟨1, 0, 0⟩]) (·.trace) =
    some [.bus 0x40 [0x03, 0x11] 0 1 []] := by decide
theorem test_bt_cmdh : after .btCmdh (at_ .idle .park [⟨0, 0, 0⟩]) (·.trace) =
    some [.bus 0x40 [0x03, 0x01] 0 0 []] := by decide
theorem test_bt_stat : after .btStat (at_ .idle .park [⟨1, 1, 0⟩]) (fun t => (t.trace, t.status)) =
    some ([.bus 0x40 [0x00] 1 1 [1]], 0) := by decide
theorem test_bt_data : after .btData (at_ .idle .park [⟨1, 0x0C, 0x80⟩]) (fun t => (t.trace, t.acc)) =
    some ([.bus 0x40 [0x01] 2 1 [0x0C, 0x80]], 0) := by decide
theorem test_bt_id : after .btId (at_ .idle .park [⟨1, 0xF0, 0⟩]) (·.trace) =
    some [.bus 0x40 [0x11] 1 1 [0xF0]] := by decide

/-! ## SPF, section 4 -/

/-- V4.10. -/
theorem test_tgl : after .tgl base (fun t => (t.spfPc, t.busHeld, t.trace)) =
    some (.prbId, true, [.lineToggle]) := by decide
/-- V4.11. -/
theorem test_rdid : after .rdid (at_ .prbId .bootProbe [⟨1, 0xF0, 0⟩])
    (fun t => (t.spfPc, t.busHeld, t.err, t.trace)) =
    some (.idle, false, .eNone, [.bus 0x40 [0x11] 1 1 [0xF0]]) := by decide
/-- V4.12. -/
theorem test_rdid_absent : after .rdid (at_ .prbId .bootProbe [⟨0, 0, 0⟩])
    (fun t => (t.spfPc, t.busHeld, t.err, t.trace)) =
    some (.idle, false, .eNone, [.bus 0x40 [0x11] 1 0 [0]]) := by decide
/-- V4.13, V5.10. -/
theorem test_start_t : after .startT (at_ .idle .callT [])
    (fun t => (t.kind, t.err, t.pollCnt, t.busHeld, t.spfPc, t.sdlPc, t.trace)) =
    some (.temp, .eNone, 0, true, .cmd, .waitT, [.start .temp]) := rfl
/-- V4.14's registers, offered by SDL. -/
theorem test_start_h : after .startH { at_ .idle .callH [] with err := .eData, pollCnt := 4 }
    (fun t => (t.kind, t.err, t.pollCnt, t.busHeld, t.spfPc)) = some (.humi, .eNone, 0, true, .cmd) := by decide
/-- V4.16. -/
theorem test_wrcmd : after .wrcmd { at_ .cmd .waitH [⟨1, 0, 0⟩] with kind := .humi }
    (fun t => (t.spfPc, t.trace)) = some (.poll, [.bus 0x40 [0x03, 0x01] 0 1 []]) := by decide
/-- V4.18. -/
theorem test_wrcmd_fails : after .wrcmd { at_ .cmd .waitH [⟨0, 0, 0⟩] with kind := .humi }
    (fun t => (t.err, t.busHeld, t.spfPc, t.trace)) =
    some (.eCmd, false, .idle, [.bus 0x40 [0x03, 0x01] 0 0 [], .done (.err .humi .eCmd)]) := by decide
/-- V4.21 and V4.22: only bit 0 is tested. -/
theorem test_rdst :
    after .rdst (at_ .poll .waitT [⟨1, 0xFE, 0⟩]) (fun t => (t.status, t.spfPc)) = some (0xFE, .data) ∧
    after .rdst (at_ .poll .waitT [⟨1, 0xFF, 0⟩]) (fun t => (t.status, t.spfPc)) = some (0xFF, .poll) := by decide
/-- V4.23, V4.28, V4.29. -/
theorem test_rdst_stops :
    after .rdst { at_ .poll .waitT [⟨0, 0, 0⟩] with status := 1 } (fun t => (t.status, t.err, t.spfPc)) =
      some (1, .eStatus, .idle) ∧
    after .rdst { at_ .poll .waitT [⟨1, 1, 0⟩] with cfg := { params with pollLimit := some 2 }, pollCnt := 1 }
      (fun t => (t.status, t.pollCnt, t.err, t.spfPc)) = some (1, 2, .eTimeout, .idle) ∧
    after .rdst { at_ .poll .waitT [⟨1, 0, 0⟩] with cfg := { params with pollLimit := some 2 }, pollCnt := 1 }
      (fun t => (t.pollCnt, t.err, t.spfPc)) = some (2, .eNone, .data) := by decide
/-- V4.24. -/
theorem test_rddt : after .rddt (at_ .data .waitT [⟨1, 0x19, 0x40⟩]) (fun t => (t.acc, t.spfPc)) =
    some (0x1940, .conv) := by decide
/-- V4.25. -/
theorem test_rddt_fails : after .rddt { at_ .data .waitH [⟨0, 0xFF, 0xFF⟩] with kind := .humi, acc := 0x1234 }
    (fun t => (t.acc, t.err, t.busHeld, t.spfPc, t.trace)) =
    some (0x1234, .eData, false, .idle,
      [.bus 0x40 [0x01] 2 0 [0xFF, 0xFF], .done (.err .humi .eData)]) := by decide
/-- V4.26. -/
theorem test_conv : after .conv { at_ .conv .waitT [] with acc := 0x1940, raw := 7 }
    (fun t => (t.raw, t.val, t.busHeld, t.spfPc, t.trace)) =
    some (1616, 16, false, .idle, [.done (.ok .temp 16)]) := by decide
/-- V4.27. -/
theorem test_conv_humidity : after .conv { at_ .conv .waitH [] with kind := .humi, acc := 0x0C80 }
    (fun t => (t.raw, t.val, t.trace)) = some (200, -184, [.done (.ok .humi (-184))]) := by decide

/-! ## SDL, section 5 -/

/-- V5.1, V5.2. -/
theorem test_bprobe :
    after .bprobe (at_ .prbId .bootProbe []) (·.sdlPc) = some .bootProbe ∧
    after .bprobe (at_ .idle .bootProbe []) (·.sdlPc) = some .bootRinit := by decide
/-- V5.3. -/
theorem test_rinit : after .rinit (at_ .idle .bootRinit []) (fun t => (t.sdlPc, t.trace)) =
    some (.bootRrecv, [.radioInit 915000000 false true]) := by decide
/-- V5.4. -/
theorem test_rrecv : after .rrecv (at_ .idle .bootRrecv []) (fun t => (t.sdlPc, t.trace)) =
    some (.bootArm, [.radioReceive [0x4E, 0x65, 0x74, 0x64, 0x75, 0x69, 0x6E, 0x6F, 0x31]]) := by decide
/-- V5.5. -/
theorem test_arm : after .arm (at_ .idle .bootArm []) (fun t => (t.tmr, t.armed, t.sdlPc)) =
    some (15, true, .park) := by decide
/-- V5.6, V5.7. -/
theorem test_park :
    after .park (at_ .idle .park []) (fun t => (t.tickPend, t.sdlPc)) = some (false, .park) ∧
    after .park { at_ .idle .park [] with tickPend := true } (fun t => (t.tickPend, t.sdlPc)) =
      some (false, .led1) := by decide
/-- V5.9: recorded although already on. -/
theorem test_ledon1 : after .ledon1 { at_ .idle .led1 [] with indicator := true }
    (fun t => (t.indicator, t.sdlPc, t.trace)) = some (true, .callT, [.ind true]) := by decide
/-- V5.10. -/
theorem test_call_t : after .callT (at_ .idle .callT []) (fun t => (t.sdlPc, t.spfPc, t.kind, t.busHeld)) =
    some (.waitT, .cmd, .temp, true) := by decide
/-- V5.11: the data of V3.8. -/
theorem test_wait_t : after .waitT { at_ .conv .waitT [] with acc := 0x23A8 } (fun t => (t.tVal, t.sdlPc, t.trace)) =
    some (682, .callH, [.done (.ok .temp 682)]) := by decide
/-- V5.12. -/
theorem test_wait_t_fails : after .waitT { at_ .cmd .waitT [⟨0, 0, 0⟩] with armed := true }
    (fun t => (t.fatalKind, t.fatalCause, t.armed, t.sdlPc)) = some (.temp, .eCmd, false, .fatal) := by decide
/-- V5.13. -/
theorem test_call_h : after .callH (at_ .idle .callH []) (fun t => (t.sdlPc, t.spfPc, t.kind, t.trace)) =
    some (.waitH, .cmd, .humi, [.start .humi]) := by decide
/-- V5.14: the data of V3.26. -/
theorem test_wait_h : after .waitH { at_ .conv .waitH [] with kind := .humi, acc := 0x4700 }
    (fun t => (t.hVal, t.sdlPc)) = some (752, .diag) := by decide
/-- V5.15. -/
theorem test_wait_h_fails :
    after .waitH { at_ .data .waitH [⟨0, 0, 0⟩] with kind := .humi, armed := true, tVal := 16 }
      (fun t => (t.fatalKind, t.fatalCause, t.armed, t.sdlPc, t.tVal)) =
    some (.humi, .eData, false, .fatal, 16) := by decide
/-- V5.16. -/
theorem test_diag : after .diag { at_ .idle .diag [] with tVal := 682, hVal := 762 } (fun t => (t.sdlPc, t.trace)) =
    some (.send, [.diagSample (Config.freeTimestamp 0) 682 762]) := rfl
/-- V5.17. -/
theorem test_send : after .send { at_ .idle .send [] with tVal := 682, hVal := 752 }
    (fun t => (t.message, t.msgLen, t.sdlPc, t.trace)) =
    some ([0x74, 0x20, 0x32, 0x31, 0x2E, 0x33, 0x2C, 0x48, 0x20, 0x34, 0x37], 11, .led2,
      [.radioSend [0x4C, 0x6F, 0x52, 0x61, 0x49, 0x6F, 0x54, 0x31]
        [0x74, 0x20, 0x32, 0x31, 0x2E, 0x33, 0x2C, 0x48, 0x20, 0x34, 0x37]]) := by decide
/-- V5.19. -/
theorem test_ledon2 : after .ledon2 (at_ .idle .led2 []) (fun t => (t.indicator, t.sdlPc, t.trace)) =
    some (true, .park, [.ind true]) := by decide
/-- V5.20. -/
theorem test_halt : after .halt (at_ .idle .fatal []) (fun t => (t.sdlPc, t.trace)) = some (.fatal, []) := by decide

/-! ## Events, sections 6 and 9 -/

/-- V6.1, V6.3. -/
theorem test_tu :
    after .tu { at_ .idle .park [] with armed := true, tmr := 15 } (fun t => (t.tmr, t.trace)) =
      some (14, [.tu]) ∧
    after .tu { at_ .idle .fatal [] with tmr := 15 } (fun t => (t.tmr, t.trace)) = some (15, [.tu]) := by decide
/-- V6.2. -/
theorem test_tu_fires : after .tu { at_ .idle .park [] with armed := true, tmr := 1 }
    (fun t => (t.tmr, t.tickPend, t.trace)) = some (300, true, [.tu, .tick]) := by decide
/-- V6.6, V6.7. -/
theorem test_tick :
    after .tick { at_ .poll .waitH [] with armed := true } (fun t => (t.tickPend, t.trace)) =
      some (true, [.tick]) ∧
    after .tick { at_ .poll .waitH [] with armed := true, cfg := { params with tickOverrun := .drop } }
      (fun t => (t.tickPend, t.trace)) = some (false, [.tick]) := by decide
/-- V6.5 under `drop`. -/
theorem test_tick_in_park :
    after .tick { at_ .idle .park [] with armed := true, cfg := { params with tickOverrun := .drop } }
      (fun t => t.tickPend) = some true := by decide
/-- V6.11. -/
theorem test_txdone : after .txdone { at_ .idle .fatal [] with indicator := true }
    (fun t => (t.indicator, t.sdlPc, t.trace)) = some (false, .fatal, [.txdone, .ind false]) := by decide

/-- The packet of V9.1; the metrics are uninterpreted. -/
def packet : Packet := ⟨[0x4C, 0x6F, 0x52, 0x61, 0x49, 0x6F, 0x54, 0x31], [1], [2], [3], [0x4F, 0x4B]⟩

/-- V9.1. -/
theorem test_rxdata : after .rxdata { base with inbound := packet } (·.trace) =
    some [.rxdata packet, .diagRx (Config.freeTimestamp 0)
      [0x4C, 0x6F, 0x52, 0x61, 0x49, 0x6F, 0x54, 0x31] [1] [2] [3] 2 [0x4F, 0x4B]] := rfl
/-- V9.2, V9.3. -/
theorem test_rxdata_not_text :
    after .rxdata { base with inbound := { packet with payload := [0xFF] } } (fun t => t.trace.tail) =
      some [.diagDecodeError] ∧
    after .rxdata { base with inbound := { packet with address := [0xC3] } } (fun t => t.trace.tail) =
      some [.diagDecodeError] := ⟨rfl, rfl⟩
/-- 93_implementation_defined.md G4: overlong forms, surrogates and what lies above U+10FFFF are no text. -/
theorem test_utf8 :
    utf8WellFormed [0xC3, 0xA9] = true ∧ utf8WellFormed [0xE2, 0x82, 0xAC] = true ∧
    utf8WellFormed [0xF4, 0x8F, 0xBF, 0xBF] = true ∧ utf8WellFormed [0xC0, 0x80] = false ∧
    utf8WellFormed [0xE0, 0x9F, 0xBF] = false ∧ utf8WellFormed [0xED, 0xA0, 0x80] = false ∧
    utf8WellFormed [0xF4, 0x90, 0x80, 0x80] = false ∧ utf8WellFormed [0xF0, 0x8F, 0xBF, 0xBF] = false := by decide

/-! ## Formatter, section 8 -/

/-- V8.2, V8.3: the longest messages. -/
theorem test_format :
    formatMessage params (-1600) (-384) =
      [0x74, 0x20, 0x2D, 0x35, 0x30, 0x2E, 0x30, 0x2C, 0x48, 0x20, 0x2D, 0x32, 0x34] ∧
    formatMessage params 14783 3711 =
      [0x74, 0x20, 0x34, 0x36, 0x32, 0x2E, 0x30, 0x2C, 0x48, 0x20, 0x32, 0x33, 0x32] := by decide
/-- V8.14, V8.15, V8.17, V8.22. -/
theorem test_format_temperature :
    fmtT params (-1) = [0x30, 0x2E, 0x30] ∧
    fmtT { params with fmtNegzero := .signed } (-1) = [0x2D, 0x30, 0x2E, 0x30] ∧
    fmtT params 8 = [0x30, 0x2E, 0x33] ∧ fmtT { params with fmtTie := .halfEven } 8 = [0x30, 0x2E, 0x32] ∧
    fmtT params (-8) = [0x2D, 0x30, 0x2E, 0x33] ∧ fmtT params 319 = [0x31, 0x30, 0x2E, 0x30] := by decide
/-- V8.30, V8.35, V8.38, V8.40, V8.42. -/
theorem test_format_humidity :
    fmtH params (-184) = [0x2D, 0x31, 0x32] ∧ fmtH { params with fmtTie := .halfEven } 8 = [0x30] ∧
    fmtH { params with fmtTie := .halfEven, fmtNegzero := .signed } (-8) = [0x2D, 0x30] ∧
    fmtH params (-7) = [0x30] ∧ fmtH params 0 = [0x30] := by decide
/-- The `FmtH1` values of section 8. -/
theorem test_format_diagnostic :
    fmtH1 params 762 = [0x34, 0x37, 0x2E, 0x36] ∧ fmtH1 params (-184) = [0x2D, 0x31, 0x31, 0x2E, 0x35] ∧
    fmtH1 params (-1) = [0x2D, 0x30, 0x2E, 0x31] := by decide

/-! ## Witnesses: concrete values that meet each statement's hypotheses -/

theorem witness_DecodeOfEncode :
    Instr.wf params .btCmdh = true ∧ Instr.wf params .btId = true ∧ Instr.wf params (.acc .humi 0xFF 0) = true := by
  decide
theorem witness_DecodedBytesAreTheEncoding :
    decode params .busW2 [0x03, 0x01, 0x09] = .ok (.btCmdh, [0x09]) := rfl
/-- Each clause at its boundary; one less is a code of the table. -/
theorem witness_CodesWithoutARowAreRejected :
    2 ≤ (2 : Byte).toNat ∧ 7 ≤ (7 : Byte).toNat ∧ 14 ≤ (14 : Byte).toNat ∧ 4 ≤ (4 : Byte).toNat ∧
    (4 : Byte) ≠ params.configReg ∧ (2 : Byte) ≠ params.cmdMeasureTemp ∧ (2 : Byte) ≠ params.cmdMeasureHumi ∧
    (1 : Byte) ≠ params.statusReg ∧ (1 : Byte) ≠ params.idReg ∧ (0 : Byte) ≠ params.dataReg ∧
    (1 : Byte).toNat < 2 := by decide

/-- A state whose next slot is `x`. -/
def planned (x : Slot) : State := { base with plan := [x] }

theorem witness_StepRunsTheDecodedInstruction :
    (planned (.turn .spf)).fetch = some ⟨.uspf, [0]⟩ ∧ decode params .uspf [0] = .ok (.tgl, []) ∧
    (planned (.issue ⟨.cmd, [1]⟩)).fetch = some ⟨.cmd, [1]⟩ ∧ decode params .cmd [1] = .ok (.startH, []) :=
  ⟨rfl, rfl, rfl, rfl⟩
theorem witness_TurnsRunTheSelectedOperation :
    ((planned (.turn .spf)).nextSlot = .turn .spf ∧ SpfPc.operation base.spfPc = some .tgl) ∧
    ({ planned (.turn .spf) with spfPc := .idle }.nextSlot = .turn .spf) ∧
    (planned (.turn .sdl)).nextSlot = .turn .sdl ∧ (planned (.turn .tu)).nextSlot = .turn .tu ∧
    (planned (.turn .tick)).nextSlot = .turn .tick ∧ (planned (.turn .txdone)).nextSlot = .turn .txdone ∧
    (planned (.turn (.rxdata packet))).nextSlot = .turn (.rxdata packet) := by decide
theorem witness_StepStopsOnlyOnUnassignedCodes :
    (planned (.turn .tu)).nextSlot = .turn .tu ∧
    step (planned (.issue ⟨.cmd, [2]⟩)) = .fault (.unassignedCode ⟨.cmd, [2]⟩) ∧
    step (planned (.issue ⟨.cmd, [1, 0]⟩)) = .fault (.unassignedCode ⟨.cmd, [1, 0]⟩) := ⟨rfl, rfl, rfl⟩
theorem witness_ResetInAnyState : (planned .hostReset).nextSlot = .hostReset := rfl
theorem witness_BootSequence :
    ∃ (s : State) (a : BusAnswer) (more : List BusAnswer) (rest : List Slot),
      s.spfPc = .prbTgl ∧ s.sdlPc = .bootProbe ∧ s.indicator = false ∧ s.busHeld = true ∧ s.armed = false ∧
      s.tickPend = false ∧ s.err = .eNone ∧ s.trace = [] ∧
      s.answers = a :: more ∧ s.plan = spfTurns 2 (sdlTurns 4 rest) :=
  ⟨{ base with answers := [⟨0, 0, 0⟩], plan := spfTurns 2 (sdlTurns 4 []) }, ⟨0, 0, 0⟩, [], [],
    rfl, rfl, rfl, rfl, rfl, rfl, rfl, rfl, rfl, rfl⟩
theorem witness_ProbeResults : base.spfPc = .prbTgl ∧ (at_ .prbId .bootProbe []).spfPc = .prbId := by decide
theorem witness_CallAndStartAreOneStep :
    ((at_ .idle .callT []).sdlPc = .callT ∧ (at_ .idle .callT []).spfPc = .idle) ∧
    ((at_ .idle .callH []).sdlPc = .callH ∧ (at_ .idle .callH []).spfPc = .idle) ∧
    (at_ .cmd .callT []).spfPc ≠ .idle := by decide
theorem witness_WrcmdResult :
    (at_ .cmd .waitT [⟨1, 0, 0⟩]).spfPc = .cmd ∧ (at_ .cmd .waitT [⟨1, 0, 0⟩]).answer.n ≠ 0 := by decide

/-- SPF polls, answered `a`, with a poll limit of 2 and `n` reads before. -/
def polling (n : Nat) (a : BusAnswer) : State :=
  { at_ .poll .waitT [a] with cfg := { params with pollLimit := some 2 }, pollCnt := n }

/-- The last read below the limit goes round again; a clear bit ends the loop at the limit too. -/
theorem witness_RdstResult :
    ((polling 1 ⟨1, 0xFE, 0⟩).spfPc = .poll ∧ (polling 1 ⟨1, 0xFE, 0⟩).answer.n ≠ 0 ∧
      (polling 1 ⟨1, 0xFE, 0⟩).answer.b0.getLsbD 0 = false) ∧
    ((polling 0 ⟨1, 1, 0⟩).answer.b0.getLsbD 0 = true ∧
      ∀ limit, (polling 0 ⟨1, 1, 0⟩).cfg.pollLimit = some limit → (polling 0 ⟨1, 1, 0⟩).pollCnt + 1 < limit) := by
  refine ⟨by decide, by decide, ?_⟩
  rintro limit h
  cases h
  decide
theorem witness_RddtResult :
    (at_ .data .waitT [⟨7, 0x19, 0x40⟩]).spfPc = .data ∧ (at_ .data .waitT [⟨7, 0x19, 0x40⟩]).answer.n ≠ 0 := by
  decide

/-- SPF at `pc` while SDL waits for a humidity measurement, answered `a`. -/
def humidity (pc : SpfPc) (a : BusAnswer) : State := { at_ pc .waitH [a] with kind := .humi }

theorem witness_ConvAndWaitResults :
    ((at_ .conv .waitT []).spfPc = .conv ∧ (at_ .conv .waitT []).sdlPc = .waitT ∧
      (at_ .conv .waitT []).kind = .temp) ∧
    ((humidity .conv ⟨1, 0, 0⟩).spfPc = .conv ∧ (humidity .conv ⟨1, 0, 0⟩).sdlPc = .waitH ∧
      (humidity .conv ⟨1, 0, 0⟩).kind = .humi) := by decide
theorem witness_FailedMeasurementIsFatal :
    (waiting (humidity .cmd ⟨0, 0, 0⟩) ∧ (humidity .cmd ⟨0, 0, 0⟩).spfPc = .cmd ∧
      (humidity .cmd ⟨0, 0, 0⟩).answer.n = 0) ∧
    (waiting (polling 0 ⟨0, 0, 0⟩) ∧ (polling 0 ⟨0, 0, 0⟩).spfPc = .poll ∧
      (polling 0 ⟨0, 0, 0⟩).answer.n = 0) ∧
    (waiting (humidity .data ⟨0, 0, 0⟩) ∧ (humidity .data ⟨0, 0, 0⟩).spfPc = .data ∧
      (humidity .data ⟨0, 0, 0⟩).answer.n = 0) ∧
    (waiting (polling 1 ⟨1, 1, 0⟩) ∧ (polling 1 ⟨1, 1, 0⟩).answer.n ≠ 0 ∧
      (polling 1 ⟨1, 1, 0⟩).answer.b0.getLsbD 0 = true ∧ (polling 1 ⟨1, 1, 0⟩).cfg.pollLimit = some 2 ∧
      2 ≤ (polling 1 ⟨1, 1, 0⟩).pollCnt + 1) := by decide
theorem witness_WaitIsTheStepThatEndsTheMeasurement :
    ((polling 1 ⟨1, 1, 0⟩).sdlPc = .waitT ∧ (polling 1 ⟨1, 1, 0⟩).kind = .temp ∧
      (polling 1 ⟨1, 1, 0⟩).spfPc = .poll) ∧
    ((humidity .conv ⟨1, 0, 0⟩).sdlPc = .waitH ∧ (humidity .conv ⟨1, 0, 0⟩).kind = .humi ∧
      (humidity .conv ⟨1, 0, 0⟩).spfPc = .conv) ∧
    (humidity .cmd ⟨1, 0, 0⟩).spfPc = .cmd ∧ (humidity .data ⟨1, 0, 0⟩).spfPc = .data ∧
    (humidity .idle ⟨1, 0, 0⟩).spfPc = .idle := by decide
/-- A read that goes round again, a failing one, and the two conversions. -/
theorem witness_DoneIsEmittedAndConsumedInOneStep :
    (CouplingInv (polling 0 ⟨1, 1, 0⟩) ∧ SpfPc.operation (polling 0 ⟨1, 1, 0⟩).spfPc = some .rdst ∧
      after .rdst (polling 0 ⟨1, 1, 0⟩) (·.sdlPc) = some .waitT) ∧
    (CouplingInv (polling 0 ⟨0, 0, 0⟩) ∧ after .rdst (polling 0 ⟨0, 0, 0⟩) (·.sdlPc) = some .fatal) ∧
    (CouplingInv (at_ .conv .waitT []) ∧ SpfPc.operation (at_ .conv .waitT []).spfPc = some .conv ∧
      after .conv (at_ .conv .waitT []) (·.sdlPc) = some .callH) ∧
    (CouplingInv (humidity .conv ⟨1, 0, 0⟩) ∧ after .conv (humidity .conv ⟨1, 0, 0⟩) (·.sdlPc) = some .diag) := by
  decide
/-- The whole byte range below `2 ^ SH` is met at its last value. -/
theorem witness_LowDataBitsAreIgnored :
    (3 : Byte).toNat < 2 ^ shiftOf .temp ∧ (15 : Byte).toNat < 2 ^ shiftOf .humi := by decide
theorem witness_BootAndParkResults :
    ((at_ .idle .bootProbe []).sdlPc = .bootProbe ∧ (at_ .idle .bootProbe []).spfPc = .idle) ∧
    (at_ .idle .bootRinit []).sdlPc = .bootRinit ∧ (at_ .idle .bootRrecv []).sdlPc = .bootRrecv ∧
    (at_ .idle .bootArm []).sdlPc = .bootArm ∧
    ({ at_ .idle .park [] with tickPend := true }.sdlPc = .park) := by decide
theorem witness_IndicatorResults :
    (at_ .idle .led1 []).sdlPc = .led1 ∧ (at_ .idle .led2 []).sdlPc = .led2 := by decide
theorem witness_DiagResult : (at_ .idle .diag []).sdlPc = .diag := rfl

/-- SDL about to send the longest message; the buffer holds an older one. -/
def sending : State :=
  { at_ .idle .send [] with tVal := -1600, hVal := -384, msg := [(0, 0x74), (12, 0x34)], msgLen := 13 }

theorem witness_SendResult :
    sending.sdlPc = .send ∧ sending.msg.wf = true ∧ tempRange sending.tVal ∧ humiRange sending.hVal := by decide
theorem witness_OperationsNotEnabledChangeNothing :
    (at_ .idle .park []).spfPc ≠ .prbTgl ∧ (at_ .idle .park []).spfPc ≠ .poll ∧
    ¬ ((at_ .cmd .callT []).sdlPc = .callT ∧ (at_ .cmd .callT []).spfPc = .idle) ∧
    ¬ ((at_ .idle .park []).sdlPc = .park ∧ (at_ .idle .park []).tickPend = true) ∧
    (at_ .idle .park []).sdlPc ≠ .waitT ∧ (at_ .idle .park []).armed = false := by decide
/-- The clauses of `TU` at 1, at 2 and unarmed, and `TICK` under `drop` outside the park. -/
theorem witness_TimerResults :
    base.armed = false ∧
    ({ base with armed := true, tmr := 1 }.armed = true ∧ { base with armed := true, tmr := 1 }.tmr = 1) ∧
    2 ≤ { base with armed := true, tmr := 2 }.tmr.toNat ∧
    ¬ ({ base with cfg := { params with tickOverrun := .drop } }.cfg.tickOverrun = .pend ∨
      { base with cfg := { params with tickOverrun := .drop } }.sdlPc = .park) := by decide
theorem witness_RxdataResult :
    (utf8Valid params.utf8Valid packet.address = true ∧ utf8Valid params.utf8Valid packet.payload = true) ∧
    utf8Valid params.utf8Valid [0xFF] = false := by decide
theorem witness_DefaultTextTest :
    (∀ b ∈ ([0x00, 0x7F] : Bytes), b.toNat < 0x80) ∧ (0xF5 : Byte) ∈ ([0x41, 0xF5] : Bytes) ∧
    0xF5 ≤ (0xF5 : Byte).toNat ∧ (0xC1 : Byte) ∈ ([0xC1] : Bytes) := by decide
/-- A remainder on each side of the tie and the tie, with both parities of the quotient. -/
theorem witness_RoundingAndSign :
    23 % 16 < 8 ∧ 8 < 25 % 16 ∧ 8 % 16 = 8 ∧ 24 % 16 = 8 ∧ (0 : Int) ≤ 0 ∧ (-1 : Int) < 0 := by decide
theorem witness_DecIsTheDecimalNumeral :
    9 < 10 ∧ 0 < 10 ∧ dec 10 = [0x31, 0x30] ∧ dec 232 = [0x32, 0x33, 0x32] := by decide
theorem witness_MessageShape :
    tempRange 14783 ∧ tempRange (-1600) ∧ humiRange 3711 ∧ humiRange (-384) ∧
    (-1600 : S16).toInt < 0 ∧ (-384 : S16).toInt < 0 := by decide
theorem witness_MessageLengths : tempRange 14783 ∧ humiRange (-384) := by decide
theorem witness_RegistersAreWrittenOnlyByTheirOperations :
    ∃ t, exec .callH (at_ .idle .callH []) = .next t ∧ t.kind ≠ (at_ .idle .callH []).kind := ⟨_, rfl, by decide⟩
theorem witness_MessageBufferFrame :
    sending.msg.wf = true ∧ (∃ t, exec .send sending = .next t) ∧ (∃ t, exec .diag sending = .next t) ∧
    (formatMessage sending.cfg sending.tVal sending.hVal).length = 13 := ⟨by decide, ⟨_, rfl⟩, ⟨_, rfl⟩, by decide⟩

/-- A state of a running cycle that meets every invariant: SPF about to convert for a waiting SDL. -/
def midway : State :=
  { at_ .conv .waitT [] with
    armed := true, tmr := 300, acc := 0x1940, trace := [.start .temp], plan := [.turn .spf], pollCnt := 1 }

theorem witness_StepKeepsTheInvariant : Inv midway ∧ ∃ t, step midway = .next t :=
  ⟨⟨by decide, by decide, by decide, by decide, fun _ _ => trivial, by decide, by decide⟩, _, rfl⟩
theorem witness_StepKeepsTheBusHandle : HandleInv midway ∧ ∃ t, step midway = .next t := ⟨by decide, _, rfl⟩
theorem witness_StepKeepsTheCoupling :
    (CouplingInv midway ∧ ∃ t, step midway = .next t) ∧
    (CouplingInv (at_ .idle .led2 []) ∧ (at_ .idle .led2 []).sdlPc ≠ .bootProbe ∧
      (at_ .idle .led2 []).sdlPc ≠ .waitT ∧ (at_ .idle .led2 []).sdlPc ≠ .waitH) :=
  ⟨⟨by decide, _, rfl⟩, by decide⟩
theorem witness_EveryStartIsAnsweredOnce : HandshakeInv midway ∧ ∃ t, step midway = .next t := ⟨by decide, _, rfl⟩
theorem witness_EveryBusEventIsATransaction :
    (∀ e ∈ [Event.bus 0x40 [0x03, 0x11] 0 1 []], busEventOk params e) ∧ ∃ t, step midway = .next t := by
  refine ⟨?_, _, rfl⟩
  intro e he
  simp only [List.mem_cons, List.not_mem_nil, or_false] at he
  subst he
  exact ⟨rfl, by decide, rfl⟩
theorem witness_EverySentMessageIsBounded :
    RangeInv sending ∧ sending.trace = [] ∧ ∃ t, step { sending with plan := [.turn .sdl] } = .next t :=
  ⟨by decide, rfl, _, rfl⟩

/-- The fatal state, with a turn to come. -/
def dead (τ : Turn) : State :=
  { at_ .idle .fatal [] with err := .eData, fatalCause := .eData, plan := [.turn τ] }

theorem witness_FatalStateIsAbsorbing :
    CouplingInv (dead .txdone) ∧ TimerInv (dead .txdone) ∧ (dead .txdone).sdlPc = .fatal ∧
    (dead .txdone).nextSlot = .turn .txdone ∧ ∃ t, step (dead .txdone) = .next t :=
  ⟨by decide, by decide, rfl, rfl, _, rfl⟩
theorem witness_EventsNeverTouchTheBus :
    (planned (.turn .txdone)).nextSlot = .turn .txdone ∧ Turn.txdone ≠ .spf ∧ Turn.txdone ≠ .sdl ∧
    ∃ t, step (planned (.turn .txdone)) = .next t := ⟨rfl, by decide, by decide, _, rfl⟩
theorem witness_ParametersStayAndTheTraceGrows :
    (planned (.turn .spf)).nextSlot ≠ .hostReset ∧ ∃ t, step (planned (.turn .spf)) = .next t :=
  ⟨by decide, _, rfl⟩
/-- Two states that differ in the packet about to be delivered. -/
theorem witness_InboundDataNeverFeedsBack :
    sameButInbound (planned (.turn (.rxdata packet))) (planned (.turn (.rxdata default))) ∧
    ∃ t, step (planned (.turn (.rxdata packet))) = .next t := ⟨⟨rfl, rfl⟩, _, rfl⟩
theorem witness_PollLoopReadsOnceMoreThanBusy :
    (∀ a ∈ [(⟨1, 1, 0⟩ : BusAnswer), ⟨3, 0xFF, 0⟩], busyAnswer a) ∧ clearAnswer ⟨1, 0xFE, 0⟩ ∧
    (⟨1, 0x19, 0x40⟩ : BusAnswer).n ≠ 0 ∧ belowLimit none (0 + 2) ∧ belowLimit (some 3) (0 + 2) ∧
    { at_ .poll .waitT [⟨1, 1, 0⟩, ⟨3, 0xFF, 0⟩, ⟨1, 0xFE, 0⟩, ⟨1, 0x19, 0x40⟩] with plan := spfTurns 4 [] }.plan =
      spfTurns ([(⟨1, 1, 0⟩ : BusAnswer), ⟨3, 0xFF, 0⟩].length + 2) [] := by decide
theorem witness_BusySensorHangsThePollLoop :
    (at_ .poll .waitT [⟨1, 1, 0⟩]).spfPc = .poll ∧ params.pollLimit = none ∧
    (∀ a ∈ [(⟨1, 1, 0⟩ : BusAnswer)], busyAnswer a) ∧
    { at_ .poll .waitT [⟨1, 1, 0⟩] with plan := spfTurns 1 [] }.plan = spfTurns 1 [] := by decide
theorem witness_PollLimitEndsTheCycle :
    (polling 0 ⟨1, 1, 0⟩).spfPc = .poll ∧ waiting (polling 0 ⟨1, 1, 0⟩) ∧ (polling 0 ⟨1, 1, 0⟩).pollCnt = 0 ∧
    (polling 0 ⟨1, 1, 0⟩).cfg.pollLimit = some 2 ∧ 2 = [(⟨1, 1, 0⟩ : BusAnswer)].length + 1 ∧
    busyAnswer ⟨1, 1, 0⟩ ∧
    { polling 0 ⟨1, 1, 0⟩ with answers := [⟨1, 1, 0⟩, ⟨1, 1, 0⟩], plan := spfTurns 2 [] }.answers =
      [(⟨1, 1, 0⟩ : BusAnswer)] ++ ⟨1, 1, 0⟩ :: [] := by decide

/-- A humidity cycle with one busy poll, ready to run. -/
def cycle : State :=
  { humidity .cmd ⟨1, 0, 0⟩ with
    answers := [⟨1, 0, 0⟩, ⟨1, 1, 0⟩, ⟨1, 0, 0⟩, ⟨1, 0x0C, 0x80⟩], plan := spfTurns 5 [] }

theorem witness_SuccessfulCycle :
    cycle.spfPc = .cmd ∧ waiting cycle ∧ cycle.pollCnt = 0 ∧ (⟨1, 0, 0⟩ : BusAnswer).n ≠ 0 ∧
    (∀ a ∈ [(⟨1, 1, 0⟩ : BusAnswer)], busyAnswer a) ∧ clearAnswer ⟨1, 0, 0⟩ ∧
    (⟨1, 0x0C, 0x80⟩ : BusAnswer).n ≠ 0 ∧ belowLimit cycle.cfg.pollLimit [(⟨1, 1, 0⟩ : BusAnswer)].length ∧
    cycle.answers = ⟨1, 0, 0⟩ :: [⟨1, 1, 0⟩] ++ ⟨1, 0, 0⟩ :: ⟨1, 0x0C, 0x80⟩ :: [] ∧
    cycle.plan = spfTurns ([(⟨1, 1, 0⟩ : BusAnswer)].length + 4) [] :=
  ⟨rfl, by decide, rfl, by decide, by decide, by decide, by decide, trivial, rfl, rfl⟩
/-- Two cycles that start with different register contents. -/
theorem witness_CycleDependsOnlyOnItsAnswers :
    ∃ (s s' t t' : State), s.acc ≠ s'.acc ∧ s.spfPc = .cmd ∧ s'.spfPc = .cmd ∧ s.kind = s'.kind ∧ s.cfg = s'.cfg ∧
      s.pollCnt = 0 ∧ s'.pollCnt = 0 ∧ s.sdlPc = s'.sdlPc ∧ s.answers = s'.answers ∧ 4 ≤ s.answers.length ∧
      s.plan = spfTurns 4 [.turn .spf] ∧ s'.plan = spfTurns 4 [.turn .spf] ∧
      run 4 s = .next t ∧ run 4 s' = .next t' :=
  ⟨cycle, { cycle with acc := 0xFFFF, status := 1, val := 9, tVal := 3 }, _, _, by decide, rfl, rfl, rfl, rfl, rfl,
    rfl, rfl, rfl, by decide, rfl, rfl, rfl, rfl⟩
theorem witness_TimerFiresAfterDelayThenEveryPeriod :
    { base with armed := true, tmr := 15, plan := tuTurns 15 [] }.armed = true ∧
    { base with armed := true, tmr := 15, plan := tuTurns 15 [] }.tmr = 15 ∧
    { base with armed := true, tmr := 15, plan := tuTurns 15 [] }.plan = tuTurns 15 [] := by decide

/-- A sampling cycle with the data of program P3, ready to run. -/
def sampling : State :=
  { at_ .idle .park [⟨1, 0, 0⟩, ⟨1, 1, 0⟩, ⟨1, 0, 0⟩, ⟨1, 0x23, 0xA8⟩, ⟨1, 0, 0⟩, ⟨1, 0, 0⟩, ⟨1, 0x47, 0x00⟩] with
    tickPend := true, armed := true, tmr := 300
    plan := sdlTurns 3 (spfTurns 5 (sdlTurns 1 (spfTurns 4 (sdlTurns 3 [])))) }

theorem witness_SamplingCycleEndToEnd :
    sampling.sdlPc = .park ∧ sampling.spfPc = .idle ∧ sampling.tickPend = true ∧
    (⟨1, 0, 0⟩ : BusAnswer).n ≠ 0 ∧ (∀ a ∈ [(⟨1, 1, 0⟩ : BusAnswer)], busyAnswer a) ∧ clearAnswer ⟨1, 0, 0⟩ ∧
    (⟨1, 0x23, 0xA8⟩ : BusAnswer).n ≠ 0 ∧ (⟨1, 0x47, 0x00⟩ : BusAnswer).n ≠ 0 ∧
    belowLimit sampling.cfg.pollLimit 1 ∧ belowLimit sampling.cfg.pollLimit 0 ∧
    sampling.answers = (⟨1, 0, 0⟩ :: [⟨1, 1, 0⟩] ++ [⟨1, 0, 0⟩, ⟨1, 0x23, 0xA8⟩]) ++
      (⟨1, 0, 0⟩ :: [] ++ [⟨1, 0, 0⟩, ⟨1, 0x47, 0x00⟩]) ++ [] ∧
    sampling.plan = sdlTurns 3 (spfTurns (1 + 4) (sdlTurns 1 (spfTurns (0 + 4) (sdlTurns 3 [])))) :=
  ⟨rfl, rfl, rfl, by decide, by decide, by decide, by decide, by decide, trivial, trivial, rfl, rfl⟩
theorem witness_IndicatorRace :
    { sending with plan := [.turn .sdl, .turn .sdl, .turn .txdone] }.plan =
      .turn .sdl :: .turn .sdl :: .turn .txdone :: [] ∧
    { sending with plan := [.turn .sdl, .turn .txdone, .turn .sdl] }.plan =
      .turn .sdl :: .turn .txdone :: .turn .sdl :: [] ∧ sending.sdlPc = .send := by decide

end Sys2Proof.Tests
end

section
/-! SUPPORT. The scope of the model (00_scope.md): what a step runs on each turn, when it stops, and that what
comes in by radio steers nothing. -/

namespace Sys2Proof.Machine

/-! ## A step on a code, and on a turn (R18, R75) -/

/-- A code that decodes with no bytes left over runs its operation on the state with the slot taken. -/
theorem step_of_decode {s : State} {c : Code} {i : Instr} (hf : s.fetch = some c)
    (hd : decode s.cfg c.fmt c.bytes = .ok (i, [])) : step s = exec i s.afterSlot := by
  simp only [step, hf, hd]

theorem fetch_of_turn {s : State} {τ : Turn} (h : s.nextSlot = .turn τ) : s.fetch = some (turnCode s τ) := by
  simp only [State.fetch, h]

/-- A micro-operation of SPF is the one its pc's code decodes to (R98). -/
theorem decode_spfPc {pc : SpfPc} {i : Instr} (p : Params) (h : SpfPc.operation pc = some i) :
    decode p .uspf [BitVec.ofNat 8 pc.code] = .ok (i, []) := by
  cases pc <;> cases h <;> rfl

/-- An operation of SDL is the one its pc's code decodes to (R99). -/
theorem decode_sdlPc (p : Params) (pc : SdlPc) :
    decode p .usdl [BitVec.ofNat 8 pc.code] = .ok (SdlPc.operation pc, []) := by
  cases pc <;> rfl

theorem step_of_spfTurn {s : State} {i : Instr} (h : s.nextSlot = .turn .spf)
    (hi : SpfPc.operation s.spfPc = some i) : step s = exec i s.afterSlot :=
  step_of_decode (fetch_of_turn h) (decode_spfPc s.cfg hi)

theorem step_of_idleSpfTurn {s : State} (h : s.nextSlot = .turn .spf) (hp : s.spfPc = .idle) :
    step s = .next s.afterSlot := by
  have hd : decode s.cfg .uspf [BitVec.ofNat 8 SpfPc.idle.code] = .error .spfIdle := rfl
  simp only [step, fetch_of_turn h, turnCode, hp, hd]

theorem step_of_sdlTurn {s : State} (h : s.nextSlot = .turn .sdl) :
    step s = exec (SdlPc.operation s.sdlPc) s.afterSlot :=
  step_of_decode (fetch_of_turn h) (decode_sdlPc s.cfg s.sdlPc)

theorem step_of_tuTurn {s : State} (h : s.nextSlot = .turn .tu) : step s = exec .tu s.afterSlot :=
  step_of_decode (fetch_of_turn h) rfl

theorem step_of_tickTurn {s : State} (h : s.nextSlot = .turn .tick) : step s = exec .tick s.afterSlot :=
  step_of_decode (fetch_of_turn h) rfl

theorem step_of_txdoneTurn {s : State} (h : s.nextSlot = .turn .txdone) :
    step s = exec .txdone s.afterSlot :=
  step_of_decode (fetch_of_turn h) rfl

theorem step_of_rxdataTurn {s : State} {p : Packet} (h : s.nextSlot = .turn (.rxdata p)) :
    step s = exec .rxdata s.afterSlot :=
  step_of_decode (fetch_of_turn h) rfl

theorem afterSlot_inbound_of_rxdataTurn {s : State} {p : Packet} (h : s.nextSlot = .turn (.rxdata p)) :
    s.afterSlot.inbound = p := by
  rw [State.afterSlot_inbound, h]; rfl

/-- Taking a slot, field by field: all it changes is the plan, the draw counter and the inbound buffers. -/
theorem afterSlot_eq (s : State) : s.afterSlot = { s with
    plan := s.plan.tail
    draw := if s.plan = [] then s.draw + 1 else s.draw
    inbound := s.nextSlot.delivered s.inbound } := by
  simp only [State.afterSlot, List.isEmpty_iff]

/-! ## When a step stops (R230) -/

theorem exec_ne_fault (i : Instr) (s : State) (f : Fault) : exec i s ≠ .fault f := by
  obtain ⟨t, h⟩ := exec_total i s
  simp [h]

theorem exec_ne_refused (i : Instr) (s : State) (r : Refusal) : exec i s ≠ .refused r := by
  obtain ⟨t, h⟩ := exec_total i s
  simp [h]

/-- A turn answers a next state: it runs an operation, and in `S_IDLE` SPF's turn only takes the slot. -/
theorem step_total_of_turn {s : State} {τ : Turn} (h : s.nextSlot = .turn τ) : ∃ t, step s = .next t := by
  cases τ with
  | spf =>
    cases hi : SpfPc.operation s.spfPc with
    | some i => exact step_of_spfTurn h hi ▸ exec_total _ _
    | none =>
      have hp : s.spfPc = .idle := by cases hpc : s.spfPc <;> simp_all [SpfPc.operation]
      exact ⟨_, step_of_idleSpfTurn h hp⟩
  | sdl => exact step_of_sdlTurn h ▸ exec_total _ _
  | tu => exact step_of_tuTurn h ▸ exec_total _ _
  | tick => exact step_of_tickTurn h ▸ exec_total _ _
  | txdone => exact step_of_txdoneTurn h ▸ exec_total _ _
  | rxdata p => exact step_of_rxdataTurn h ▸ exec_total _ _

theorem step_ne_refused (s : State) (r : Refusal) : step s ≠ .refused r := by
  unfold step
  split
  · simp
  · split
    · exact exec_ne_refused _ _ r
    all_goals simp

/-- A step faults exactly on a fetched code that selects no operation, whether by its bits or by bytes left over, and is
not SPF's idle code. -/
theorem step_eq_fault_iff {s : State} {f : Fault} : step s = .fault f ↔
    ∃ c, s.fetch = some c ∧ f = .unassignedCode c ∧ ¬ (∃ i, decode s.cfg c.fmt c.bytes = .ok (i, [])) ∧
      decode s.cfg c.fmt c.bytes ≠ .error .spfIdle := by
  cases hf : s.fetch with
  | none => simp [step, hf]
  | some c =>
    rcases hd : decode s.cfg c.fmt c.bytes with (_ | _ | _) | ⟨i, _ | ⟨b, rest⟩⟩
    case ok.nil => simp [step_of_decode hf hd, exec_ne_fault, hd]
    all_goals simp [step, hf, hd, eq_comm]

/-- A fetched code is issued from outside or presented by a turn. -/
theorem fetch_eq_some_iff {s : State} {c : Code} : s.fetch = some c ↔
    s.nextSlot = .issue c ∨ ∃ τ, s.nextSlot = .turn τ ∧ turnCode s τ = c := by
  cases h : s.nextSlot <;> simp [State.fetch, h]

/-! ## What inbound data can reach (R3, R186) -/

/-- What is left of a state when the inbound buffers, the trace and the plan are taken out. -/
def State.sealed (s : State) : State := { s with inbound := default, trace := [], plan := [] }

/-- `sameButInbound` through the two projections it compares. -/
theorem sameButInbound_iff {s s' : State} : sameButInbound s s' ↔
    s.sealed = s'.sealed ∧ s.plan.map Slot.blind = s'.plan.map Slot.blind := Iff.rfl

/-- Two branchings on the same condition look alike through `f` when their branches do. -/
theorem map_ite_congr {α β : Type} (f : α → β) {c : Prop} [Decidable c] {a b a' b' : α}
    (ha : f a = f a') (hb : f b = f b') : f (if c then a else b) = f (if c then a' else b') := by
  split
  · exact ha
  · exact hb

theorem sealed_deliver (d : Done) (s : State) : (s.deliver d).sealed = (s.sealed.deliver d).sealed := by
  have hpc : s.sealed.sdlPc = s.sdlPc := rfl
  simp only [State.deliver, hpc]
  split <;> rfl

/-- A micro-operation's result as far as inbound data cannot reach it. -/
def sealedResult (r : State × Option Done) : State × Option Done := (r.1.sealed, r.2)

theorem sealed_settle {r r' : State × Option Done} (h : sealedResult r = sealedResult r') :
    (settle r).sealed = (settle r').sealed := by
  obtain ⟨s, d⟩ := r
  obtain ⟨s', d'⟩ := r'
  obtain ⟨hs, rfl⟩ := Prod.mk.inj h
  cases d with
  | none => exact hs
  | some d =>
    change (s.deliver d).sealed = (s'.deliver d).sealed
    rw [sealed_deliver d s, sealed_deliver d s']
    exact congrArg (fun u => (State.deliver d u).sealed) hs

theorem sealed_wrcmdRule (s : State) : sealedResult (wrcmdRule s) = sealedResult (wrcmdRule s.sealed) := by
  have hk : s.sealed.kind = s.kind := rfl
  simp only [wrcmdRule, hk]
  cases s.kind
  all_goals exact map_ite_congr sealedResult rfl rfl

theorem sealed_rdstRule (s : State) : sealedResult (rdstRule s) = sealedResult (rdstRule s.sealed) :=
  map_ite_congr sealedResult rfl (map_ite_congr sealedResult rfl (map_ite_congr sealedResult rfl rfl))

theorem sealed_rddtRule (s : State) : sealedResult (rddtRule s) = sealedResult (rddtRule s.sealed) :=
  map_ite_congr sealedResult rfl rfl

theorem sealed_spfRule (s : State) : sealedResult (spfRule s) = sealedResult (spfRule s.sealed) := by
  have hp : s.sealed.spfPc = s.spfPc := rfl
  simp only [spfRule, hp]
  cases s.spfPc with
  | cmd => exact sealed_wrcmdRule s
  | poll => exact sealed_rdstRule s
  | data => exact sealed_rddtRule s
  | prbTgl | prbId | idle | conv => rfl

theorem sealed_settle_spfRule (s : State) : (settle (spfRule s)).sealed = (settle (spfRule s.sealed)).sealed :=
  sealed_settle (sealed_spfRule s)

theorem sealed_callStart (k : Kind) (call wait : SdlPc) (s : State) :
    (callStart k call wait s).sealed = (callStart k call wait s.sealed).sealed :=
  map_ite_congr State.sealed rfl rfl

/-- SDL's return as one test: SPF's micro-operation is delivered when it emits a `DONE` of the kind SDL waits for. -/
theorem waitDone_eq (k : Kind) (wait : SdlPc) (s : State) : waitDone k wait s =
    if s.sdlPc = wait ∧ (spfRule s).2.map Done.kind = some k then settle (spfRule s) else s := by
  rcases h : spfRule s with ⟨t, _ | d⟩ <;> simp [waitDone, h, settle, ← ite_and]

theorem sealed_waitDone (k : Kind) (wait : SdlPc) (s : State) :
    (waitDone k wait s).sealed = (waitDone k wait s.sealed).sealed := by
  have hd : (spfRule s.sealed).2 = (spfRule s).2 := (congrArg Prod.snd (sealed_spfRule s)).symm
  rw [waitDone_eq, waitDone_eq, hd]
  exact map_ite_congr State.sealed (sealed_settle_spfRule s) rfl

/-- Every operation, on a state and on what is left of it without inbound data, ends alike. -/
theorem exec_sealed (i : Instr) (s : State) :
    ∃ t u, exec i s = .next t ∧ exec i s.sealed = .next u ∧ t.sealed = u.sealed := by
  cases i with
  | wrcmd => exact ⟨_, _, rfl, rfl, map_ite_congr State.sealed (sealed_settle (sealed_wrcmdRule s)) rfl⟩
  | rdst => exact ⟨_, _, rfl, rfl, map_ite_congr State.sealed (sealed_settle (sealed_rdstRule s)) rfl⟩
  | rddt => exact ⟨_, _, rfl, rfl, map_ite_congr State.sealed (sealed_settle (sealed_rddtRule s)) rfl⟩
  | conv => exact ⟨_, _, rfl, rfl, map_ite_congr State.sealed (sealed_settle rfl) rfl⟩
  | startT | callT | startH | callH => exact ⟨_, _, rfl, rfl, sealed_callStart _ _ _ s⟩
  | waitT | waitH => exact ⟨_, _, rfl, rfl, sealed_waitDone _ _ s⟩
  | tu => exact ⟨_, _, rfl, rfl, map_ite_congr State.sealed (map_ite_congr State.sealed rfl rfl) rfl⟩
  | tgl | rdid | bprobe | rinit | rrecv | arm | park | ledon1 | diag | send | ledon2 | tick =>
    exact ⟨_, _, rfl, rfl, map_ite_congr State.sealed rfl rfl⟩
  | btCmdt | btCmdh | btStat | btData | btId | halt | txdone | rxdata | acc | shroff =>
    exact ⟨_, _, rfl, rfl, rfl⟩

/-- No operation touches the plan. -/
theorem exec_plan {i : Instr} {s t : State} (h : exec i s = .next t) : t.plan = s.plan := by
  cases exec_effect h with
  | spf =>
    obtain ⟨-, -, -, -, -, -, hplan, -⟩ := settle_frame s
    exact hplan
  | _ => rfl

/-! ## The slot a step takes, up to inbound data -/

/-- Blinding hides the contents of a delivered packet and nothing else. -/
theorem blind_eq_blind_iff {x y : Slot} : x.blind = y.blind ↔
    x = y ∨ ∃ p q, x = .turn (.rxdata p) ∧ y = .turn (.rxdata q) := by
  constructor
  · intro h
    unfold Slot.blind at h
    split at h <;> split at h
    · exact .inr ⟨_, _, rfl, rfl⟩
    · next hy => exact absurd h.symm (hy _)
    · next hx _ _ => exact absurd h (hx _)
    · exact .inl h
  · rintro (rfl | ⟨p, q, rfl, rfl⟩) <;> rfl

section
variable {s s' : State} (h : sameButInbound s s')
include h

theorem sameButInbound_cfg : s.cfg = s'.cfg := by simpa using congrArg State.cfg h.1

theorem sameButInbound_nextSlot : s.nextSlot.blind = s'.nextSlot.blind := by
  have hdraw : s.draw = s'.draw := by simpa using congrArg State.draw h.1
  have hplan := h.2
  cases hp : s.plan <;> cases hp' : s'.plan <;> simp_all [State.nextSlot]

/-- The two states present the same code: a packet's contents are no part of it. -/
theorem sameButInbound_fetch : s.fetch = s'.fetch := by
  rcases blind_eq_blind_iff.1 (sameButInbound_nextSlot h) with he | ⟨p, q, hp, hq⟩
  · have hspf : s.spfPc = s'.spfPc := by simpa using congrArg State.spfPc h.1
    have hsdl : s.sdlPc = s'.sdlPc := by simpa using congrArg State.sdlPc h.1
    have hcode (τ : Turn) : turnCode s τ = turnCode s' τ := by cases τ <;> simp [turnCode, hspf, hsdl]
    simp [State.fetch, he, hcode]
  · rw [fetch_of_turn hp, fetch_of_turn hq]; rfl

theorem sameButInbound_afterSlot : sameButInbound s.afterSlot s'.afterSlot := by
  obtain ⟨hs, hplan⟩ := sameButInbound_iff.1 h
  have hempty : s.plan.isEmpty = s'.plan.isEmpty := by simpa using congrArg List.isEmpty hplan
  have sealed_afterSlot (u : State) : u.afterSlot.sealed =
      { u.sealed with draw := if u.plan.isEmpty then u.sealed.draw + 1 else u.sealed.draw } := rfl
  refine sameButInbound_iff.2 ⟨?_, ?_⟩
  · rw [sealed_afterSlot, sealed_afterSlot, hs, hempty]
  · simpa using congrArg List.tail hplan

theorem sameButInbound_hostReset : sameButInbound s.hostReset s'.hostReset :=
  ⟨congrArg State.hostReset h.1, h.2⟩

theorem sameButInbound_exec {i : Instr} {t : State} (he : exec i s = .next t) :
    ∃ t', exec i s' = .next t' ∧ sameButInbound t t' := by
  obtain ⟨hs, hplan⟩ := sameButInbound_iff.1 h
  obtain ⟨t₁, u, ht, hu, htu⟩ := exec_sealed i s
  obtain ⟨t', u', ht', hu', htu'⟩ := exec_sealed i s'
  obtain rfl : t₁ = t := by simpa [ht] using he
  obtain rfl : u = u' := by simpa [hs, hu'] using hu.symm
  refine ⟨t', ht', sameButInbound_iff.2 ⟨htu.trans htu'.symm, ?_⟩⟩
  rw [exec_plan ht, exec_plan ht', hplan]

/-- A step from one of the two states is matched by a step from the other: the same reset, the same operation, or the
same idle turn of SPF. -/
theorem sameButInbound_step {t : State} (ht : step s = .next t) :
    ∃ t', step s' = .next t' ∧ sameButInbound t t' := by
  have hfetch := sameButInbound_fetch h
  have hcfg := sameButInbound_cfg h
  have hslot := sameButInbound_afterSlot h
  unfold step at ht ⊢
  rw [← hfetch, ← hcfg]
  split at ht
  · cases ht; exact ⟨_, rfl, sameButInbound_hostReset hslot⟩
  · split at ht
    · exact sameButInbound_exec hslot ht
    · cases ht
    · cases ht; exact ⟨_, rfl, hslot⟩
    · cases ht

end

end Sys2Proof.Machine

section
open Sys2Proof Sys2Proof.Machine

/-- Settles O7: `step` by its one running branch, and the slot's own frame. -/
theorem stepRunsTheDecodedInstruction : Obligations.StepRunsTheDecodedInstruction := by
  intro s c i hf hd
  exact ⟨step_of_decode hf hd, afterSlot_eq s⟩

/-- Settles O8: one clause per turn, each from the operation its code decodes to. -/
theorem turnsRunTheSelectedOperation : Obligations.TurnsRunTheSelectedOperation := by
  intro s
  exact ⟨fun _ h hi => step_of_spfTurn h hi, step_of_idleSpfTurn, step_of_sdlTurn, step_of_tuTurn, step_of_tickTurn,
    step_of_txdoneTurn, fun _ h => ⟨step_of_rxdataTurn h, afterSlot_inbound_of_rxdataTurn h⟩⟩

/-- Settles O9: a code that faults is no turn's, since every turn answers a next state. -/
theorem stepStopsOnlyOnUnassignedCodes : Obligations.StepStopsOnlyOnUnassignedCodes := by
  intro s
  refine ⟨fun τ h => step_total_of_turn h, step_ne_refused s, fun f => ⟨fun hfault => ?_, ?_⟩⟩
  · obtain ⟨c, hf, hrest⟩ := step_eq_fault_iff.1 hfault
    rcases fetch_eq_some_iff.1 hf with hissue | ⟨τ, hturn, -⟩
    · exact ⟨c, hissue, hrest⟩
    · obtain ⟨t, ht⟩ := step_total_of_turn hturn
      simp [ht] at hfault
  · rintro ⟨c, hissue, hrest⟩
    exact step_eq_fault_iff.2 ⟨c, fetch_eq_some_iff.2 (.inl hissue), hrest⟩

/-- Settles O52: the code fetched, the slot taken and the operation run do not depend on inbound data. -/
theorem inboundDataNeverFeedsBack : Obligations.InboundDataNeverFeedsBack := by
  intro s s' t h ht
  exact sameButInbound_step h ht

end

end

section
/-! SUPPORT. The invariant of the machine (10_state.md R28, R44; 42_sdl_dispatch.md R184, R187; 60_exceptions.md R234,
R240), part by part: for each part what the shared operations must leave alone for it to last, and that every effect of
an operation keeps it. -/

namespace Sys2Proof.Machine

/-- Without a `DONE` there is nothing to deliver. -/
theorem spfRule_eq_of_none {s : State} (h : (spfRule s).2 = none) : spfRule s = (settle (spfRule s), none) :=
  Prod.ext (by simp only [settle, h]) h

/-! ## The bus handle (R28) -/

/-- What a delivered micro-operation does to the bus handle: it goes on inside its cycle, or SPF is idle and the bus
free. -/
theorem settle_handle (s : State) :
    ((settle (spfRule s)).busHeld = s.busHeld ∧ ((settle (spfRule s)).spfPc = .idle ↔ s.spfPc = .idle)) ∨
      ((settle (spfRule s)).spfPc = .idle ∧ (settle (spfRule s)).busHeld = false) := by
  rcases settle_sdl s with ⟨hnone, -⟩ | ⟨hpc, hbus, -⟩
  · rcases spfRule_none_pc (spfRule_eq_of_none hnone) with
      ⟨h, h', hb⟩ | ⟨-, h', hb⟩ | ⟨-, h'⟩ | ⟨h, h', hb, -⟩ | ⟨h, h', hb⟩ | ⟨h, h', hb, -⟩ | ⟨h, h', hb⟩
    case inr.inl => exact .inr ⟨h', hb⟩
    case inr.inr.inl => exact .inl (by simp [h'])
    all_goals exact .inl ⟨hb, by simp [h, h']⟩
  · exact .inr ⟨hpc, hbus⟩

theorem HandleInv.reset : HandleInv State.reset := by decide

theorem HandleInv.effect {s t : State} (hs : HandleInv s) (h : Effect s t) : HandleInv t := by
  cases h with
  | spf =>
    rcases settle_handle s with ⟨hbus, hpc⟩ | ⟨hpc, hbus⟩
    · rw [HandleInv, hbus, Ne, hpc]; exact hs
    · simp [HandleInv, hbus, hpc]
  | callT | callH => simp [HandleInv]
  | _ => exact hs

theorem HandleInv.step {s t : State} (hs : HandleInv s) (h : step s = .next t) : HandleInv t :=
  step_keeps (fun _ h => h) (fun _ _ => HandleInv.reset) (fun _ _ => HandleInv.effect) hs h

/-! ## The coupling of the sequencers (R44) -/

/-- R44 (c): SDL neither probes nor waits, so SPF is idle. -/
theorem CouplingInv.idle {s : State} (hs : CouplingInv s) (hprobe : s.sdlPc ≠ .bootProbe) (hT : s.sdlPc ≠ .waitT)
    (hH : s.sdlPc ≠ .waitH) : s.spfPc = .idle := by
  obtain ⟨hprb, hmeas, -⟩ := hs
  cases hp : s.spfPc with
  | idle => rfl
  | prbTgl | prbId => exact absurd (hprb (by simp [hp])) hprobe
  | cmd | poll | data | conv => exact absurd (hmeas.1 (by simp [hp])) (not_or.2 ⟨hT, hH⟩)

/-- While SPF measures, SDL waits for that measurement. -/
theorem CouplingInv.waiting {s : State} (hs : CouplingInv s) (hm : SpfPc.measuring s.spfPc = true) : waiting s := by
  obtain ⟨-, hmeas, hT, hH⟩ := hs
  exact (hmeas.1 hm).imp (fun h => ⟨h, hT h⟩) (fun h => ⟨h, hH h⟩)

theorem CouplingInv.of_idle {t : State} (hp : t.spfPc = .idle) (hT : t.sdlPc ≠ .waitT) (hH : t.sdlPc ≠ .waitH) :
    CouplingInv t := by
  simp [CouplingInv, hp, hT, hH]

/-- A micro-operation without a `DONE` stays on its side of the coupling: in the probe, in the measurement, or idle. -/
theorem spfRule_none_phase {s t : State} (h : spfRule s = (t, none)) :
    ((t.spfPc = .prbTgl ∨ t.spfPc = .prbId) → (s.spfPc = .prbTgl ∨ s.spfPc = .prbId)) ∧
    SpfPc.measuring t.spfPc = SpfPc.measuring s.spfPc := by
  rcases spfRule_none_pc h with ⟨h, h', -⟩ | ⟨h, h', -⟩ | ⟨-, h'⟩ | ⟨h, h', -⟩ | ⟨h, h', -⟩ | ⟨h, h', -⟩ | ⟨h, h', -⟩
  case inr.inr.inl => simp [h']
  all_goals simp [h, h']

theorem CouplingInv.spf {s : State} (hs : CouplingInv s) : CouplingInv (settle (spfRule s)) := by
  obtain ⟨-, -, -, -, -, -, -, -, hkind⟩ := settle_frame s
  rcases settle_sdl s with ⟨hnone, -, hsdl, -⟩ | ⟨hpc, -, hdone⟩
  · obtain ⟨hprobe, hmeas⟩ := spfRule_none_phase (spfRule_eq_of_none hnone)
    obtain ⟨h1, h2, h3, h4⟩ := hs
    rw [CouplingInv, hmeas, hsdl, hkind]
    exact ⟨fun h => h1 (hprobe h), h2, h3, h4⟩
  · rcases hdone with ⟨-, -, -, hsdl, -⟩ | ⟨-, -, -, hsdl, -⟩ | ⟨e, -, hsdl, -⟩ | ⟨hT, hH, hm, -⟩
    case inr.inr.inr => exact absurd (hs.waiting hm) (not_or.2 ⟨hT, hH⟩)
    all_goals exact .of_idle hpc (by simp [hsdl]) (by simp [hsdl])

theorem CouplingInv.reset : CouplingInv State.reset := by decide

theorem CouplingInv.effect {s t : State} (hs : CouplingInv s) (h : Effect s t) : CouplingInv t := by
  cases h with
  | spf => exact hs.spf
  | callT | callH => simp [CouplingInv]
  | bprobe _ hidle => exact .of_idle hidle (by simp) (by simp)
  | rinit h | rrecv h | arm h | park h | ledon1 h | diag h | send h | ledon2 h =>
    exact .of_idle (hs.idle (by simp [h]) (by simp [h]) (by simp [h])) (by simp) (by simp)
  | _ => exact hs

theorem CouplingInv.step {s t : State} (hs : CouplingInv s) (h : step s = .next t) : CouplingInv t :=
  step_keeps (fun _ h => h) (fun _ _ => CouplingInv.reset) (fun _ _ => CouplingInv.effect) hs h

/-! ## The sampling timer (R184, R187) -/

/-- The timer's invariant lasts while SDL stays in its phase and no register of the timer moves but for a tick
taken. -/
theorem TimerInv.of_eq {s t : State} (hs : TimerInv s) (hrun : SdlPc.running t.sdlPc = SdlPc.running s.sdlPc)
    (harmed : t.armed = s.armed) (htmr : t.tmr = s.tmr) (htick : t.tickPend = true → s.tickPend = true)
    (hfatal : s.sdlPc = .fatal → t.sdlPc = .fatal) : TimerInv t := by
  obtain ⟨h1, h2, h3⟩ := hs
  rw [TimerInv, hrun, harmed, htmr]
  exact ⟨h1, h2, fun h => (h3 (htick h)).imp_right hfatal⟩

/-- A tick is raised only where the timer is armed, so in a running phase. -/
theorem TimerInv.raiseTick {s : State} (hs : TimerInv s) (harmed : s.armed = true) : TimerInv s.raiseTick := by
  obtain ⟨hrun, htmr, -⟩ := hs
  exact ⟨hrun, htmr, fun _ => .inl (hrun.1 harmed)⟩

theorem TimerInv.spf {s : State} (hs : TimerInv s) : TimerInv (settle (spfRule s)) := by
  obtain ⟨htmr, htick, -⟩ := settle_frame s
  have same (hsdl : (settle (spfRule s)).sdlPc = s.sdlPc) (ha : (settle (spfRule s)).armed = s.armed) :=
    hs.of_eq (by rw [hsdl]) ha htmr (by simp [htick]) (by simp [hsdl])
  rcases settle_sdl s with ⟨-, -, hsdl, ha, -⟩ | ⟨-, -, ⟨h, -, -, hsdl, -, -, ha, -⟩ |
    ⟨h, -, -, hsdl, -, -, ha, -⟩ | ⟨e, -, hsdl, ha, -⟩ | ⟨-, -, -, hsdl, ha, -⟩⟩
  · exact same hsdl ha
  · exact hs.of_eq (by simp [h, hsdl]) ha htmr (by simp [htick]) (by simp [h])
  · exact hs.of_eq (by simp [h, hsdl]) ha htmr (by simp [htick]) (by simp [h])
  · simp [TimerInv, hsdl, ha]
  · exact same hsdl ha

theorem TimerInv.effect {s t : State} (hs : TimerInv s) (h : Effect s t) : TimerInv t := by
  have ⟨hrun, htmr, htick⟩ := hs
  cases h with
  | spf => exact hs.spf
  | callT h | callH h | bprobe h | rinit h | rrecv h | park h | ledon1 h | diag h | send h | ledon2 h =>
    exact hs.of_eq (by simp [h]) rfl rfl (by simp) (by simp [h])
  | arm => simp [TimerInv, Config.rom]
  | tuFires harmed =>
    refine TimerInv.raiseTick ⟨hrun, fun _ => ?_, htick⟩ harmed
    simp [Config.rom]
  | tuCounts harmed hne =>
    obtain ⟨hlo, hhi⟩ := htmr harmed
    refine ⟨hrun, fun _ => ?_, htick⟩
    constructor <;> simp only <;> bv_omega
  | tick harmed => exact hs.raiseTick harmed
  | _ => exact hs

/-! ## Errors (R101, R234, R240, R243) -/

/-- The record of errors lasts outside `L_FATAL` while `err` does not move. -/
theorem ErrorInv.of_eq {s t : State} (hs : ErrorInv s) (hsdl : s.sdlPc ≠ .fatal) (hsdl' : t.sdlPc ≠ .fatal)
    (herr : t.err = s.err) : ErrorInv t := by
  have hnone : s.err = .eNone := by simpa [hsdl] using hs.1
  simp [ErrorInv, herr, hnone, hsdl']

theorem ErrorInv.spf {s : State} (hs : ErrorInv s) (hc : CouplingInv s) : ErrorInv (settle (spfRule s)) := by
  obtain ⟨-, -, -, -, -, hcfg, -, -, hkind⟩ := settle_frame s
  rcases settle_sdl s with ⟨-, -, hsdl, -, -, -, hfc, hfk, herr⟩ | ⟨-, -, ⟨h, -, -, hsdl, -, -, -, herr, -⟩ |
    ⟨h, -, -, hsdl, -, -, -, herr, -⟩ | ⟨e, -, hsdl, -, herr, hfc, hfk, -, -, hne, hnd, hto⟩ | ⟨hT, hH, hm, -⟩⟩
  · rw [ErrorInv, hsdl, hfc, hfk, herr, hcfg, hkind]; exact hs
  · exact hs.of_eq (by simp [h]) (by simp [hsdl]) herr
  · exact hs.of_eq (by simp [h]) (by simp [hsdl]) herr
  · rw [ErrorInv, hsdl, hfc, hfk, herr, hcfg, hkind]
    exact ⟨by simp [hne], fun _ => ⟨rfl, rfl⟩, hnd, hto⟩
  · exact absurd (hc.waiting hm) (not_or.2 ⟨hT, hH⟩)

theorem ErrorInv.effect {s t : State} (hs : ErrorInv s) (hc : CouplingInv s) (h : Effect s t) : ErrorInv t := by
  cases h with
  | spf => exact hs.spf hc
  | callT | callH => simp [ErrorInv]
  | bprobe h | rinit h | rrecv h | arm h | park h | ledon1 h | diag h | send h | ledon2 h =>
    exact hs.of_eq (by simp [h]) (by simp) rfl
  | _ => exact hs

/-! ## The poll bound (R134) -/

theorem belowLimit_of_not_pollExpired {p : Params} {n : Nat} (h : pollExpired p n = false) :
    belowLimit p.pollLimit (n + 1) := by
  cases hl : p.pollLimit with
  | none => trivial
  | some l => simpa [pollExpired, hl] using h

/-- A poll limit is positive (R8). -/
theorem belowLimit_zero {p : Params} (h : p.wf = true) : belowLimit p.pollLimit 0 := by
  cases hl : p.pollLimit with
  | none => trivial
  | some l =>
    have : l ≠ 0 := by simpa [Params.wf, hl] using (Bool.and_eq_true_iff.1 h).2
    exact Nat.pos_of_ne_zero this

theorem PollInv.of_pc {t : State} (hcmd : t.spfPc ≠ .cmd) (hpoll : t.spfPc ≠ .poll) : PollInv t :=
  fun _ h => absurd h (by simp [hcmd, hpoll])

theorem PollInv.spf {s : State} (hs : PollInv s) : PollInv (settle (spfRule s)) := by
  obtain ⟨-, -, -, -, -, hcfg, -⟩ := settle_frame s
  rcases settle_sdl s with ⟨hnone, -⟩ | ⟨hpc, -⟩
  · rcases spfRule_none_pc (spfRule_eq_of_none hnone) with
      ⟨-, h, -⟩ | ⟨-, h, -⟩ | ⟨-, h⟩ | ⟨h, -, -, hcnt⟩ | ⟨-, h, -⟩ | ⟨-, -, -, hcnt, hexp⟩ | ⟨-, h, -⟩
    case inr.inr.inl => rwa [h]
    case inr.inr.inr.inl =>
      intro hwf _
      rw [hcnt, hcfg]
      exact hs (hcfg ▸ hwf) (.inl h)
    case inr.inr.inr.inr.inr.inl =>
      intro _ _
      rw [hcnt, hcfg]
      exact belowLimit_of_not_pollExpired hexp
    all_goals exact .of_pc (by simp [h]) (by simp [h])
  · exact .of_pc (by simp [hpc]) (by simp [hpc])

theorem PollInv.effect {s t : State} (hs : PollInv s) (h : Effect s t) : PollInv t := by
  cases h with
  | spf => exact hs.spf
  | callT | callH => exact fun hwf _ => belowLimit_zero hwf
  | _ => exact hs

/-! ## The ranges of the latched values (R154) -/

theorem tempRange_num (a : U16) : tempRange (num .temp (shr .temp a)) := by
  have hr : (shr .temp a).toNat = a.toNat / 4 := by simp [shr, shiftOf, Config.rom, Nat.shiftRight_eq_div_pow]
  have ha := a.isLt
  simp only [tempRange, num, offsetOf, offOf, divOf, Config.rom, hr, BitVec.toInt_ofInt, Int.bmod_def]
  omega

theorem humiRange_num (a : U16) : humiRange (num .humi (shr .humi a)) := by
  have hr : (shr .humi a).toNat = a.toNat / 16 := by simp [shr, shiftOf, Config.rom, Nat.shiftRight_eq_div_pow]
  have ha := a.isLt
  simp only [humiRange, num, offsetOf, offOf, divOf, Config.rom, hr, BitVec.toInt_ofInt, Int.bmod_def]
  omega

/-- The ranges last while the readings do not move and SDL claims none it had not. -/
theorem RangeInv.of_eq {s t : State} (hs : RangeInv s) (hT : SdlPc.hasT t.sdlPc = true → SdlPc.hasT s.sdlPc = true)
    (hH : SdlPc.hasH t.sdlPc = true → SdlPc.hasH s.sdlPc = true) (htv : t.tVal = s.tVal) (hhv : t.hVal = s.hVal) :
    RangeInv t := by
  rw [RangeInv, htv, hhv]
  exact ⟨fun h => hs.1 (hT h), fun h => hs.2 (hH h)⟩

theorem RangeInv.spf {s : State} (hs : RangeInv s) : RangeInv (settle (spfRule s)) := by
  have same (hsdl : (settle (spfRule s)).sdlPc = s.sdlPc) :=
    hs.of_eq (t := settle (spfRule s)) (by simp [hsdl]) (by simp [hsdl])
  rcases settle_sdl s with ⟨-, -, hsdl, -, htv, hhv, -⟩ | ⟨-, -, ⟨-, -, -, hsdl, htv, -⟩ |
    ⟨h, -, -, hsdl, hhv, htv, -⟩ | ⟨e, -, hsdl, -⟩ | ⟨-, -, -, hsdl, -, htv, hhv, -⟩⟩
  · exact same hsdl htv hhv
  · simp only [RangeInv, hsdl, htv]
    exact ⟨fun _ => tempRange_num _, nofun⟩
  · simp only [RangeInv, hsdl, htv, hhv]
    exact ⟨fun _ => hs.1 (by simp [h]), fun _ => humiRange_num _⟩
  · simp [RangeInv, hsdl]
  · exact same hsdl htv hhv

theorem RangeInv.effect {s t : State} (hs : RangeInv s) (h : Effect s t) : RangeInv t := by
  cases h with
  | spf => exact hs.spf
  | callT h | callH h | bprobe h | rinit h | rrecv h | arm h | park h | ledon1 h | diag h | send h | ledon2 h =>
    exact hs.of_eq (by simp [h]) (by simp [h]) rfl rfl
  | _ => exact hs

/-! ## The lengths of a message (43_format.md R210 to R216) -/

theorem decDigits_length {fuel n : Nat} (tail : Bytes) (h : n < fuel) :
    (decDigits fuel n tail).length = Nat.log 10 n + 1 + tail.length := by
  induction fuel generalizing n tail with
  | zero => omega
  | succ fuel ih =>
    unfold decDigits
    split
    · next hlt => simp [Nat.log_of_lt hlt]; omega
    · next hge =>
      rw [ih _ (by omega), Nat.log_of_one_lt_of_le (by omega) (by omega : 10 ≤ n), List.length_cons]
      omega

theorem dec_length (n : Nat) : (dec n).length = Nat.log 10 n + 1 := by
  simp [dec, decDigits_length]

theorem dec_length_pos (n : Nat) : 1 ≤ (dec n).length := by
  simp [dec_length]

/-- A number below `10 ^ k` has at most `k` digits. -/
theorem dec_length_le {n k : Nat} (hk : k ≠ 0) (h : n < 10 ^ k) : (dec n).length ≤ k := by
  rw [dec_length]
  exact Nat.log_lt_of_lt_pow' hk h

/-- Rounding to sixteenths moves a number by at most half a unit (R213). -/
theorem roundQ_le (tie : FmtTie) (a : Nat) : 16 * roundQ tie a ≤ a + 8 := by
  cases tie <;> simp only [roundQ] <;> split_ifs <;> omega

theorem signOf_length_le (nz : FmtNegzero) (x : Int) (q : Nat) : (signOf nz x q).length ≤ 1 := by
  unfold signOf; split_ifs
  · simp
  · simp
  · cases nz <;> simp

theorem signOf_of_nonneg {x : Int} (nz : FmtNegzero) (q : Nat) (h : 0 ≤ x) : signOf nz x q = [] := by
  simp [signOf, h]

theorem tenths_length (q : Nat) : (tenths q).length = (dec (q / 10)).length + 2 := by
  simp [tenths]

/-- R216: a temperature takes 3 to 5 bytes. A negative one has a sign, but at most two digits before the point. -/
theorem fmtT_length {p : Params} {t : S16} (h : tempRange t) :
    3 ≤ (fmtT p t).length ∧ (fmtT p t).length ≤ 5 := by
  obtain ⟨hlo, hhi⟩ := h
  have hq := roundQ_le p.fmtTie (t.toInt.natAbs * 5)
  have hpos := dec_length_pos (roundQ p.fmtTie (t.toInt.natAbs * 5) / 10)
  simp only [fmtT, List.length_append, tenths_length]
  refine ⟨by omega, ?_⟩
  by_cases h0 : 0 ≤ t.toInt
  · have := dec_length_le (n := roundQ p.fmtTie (t.toInt.natAbs * 5) / 10) (k := 3) (by omega) (by omega)
    rw [signOf_of_nonneg _ _ h0, List.length_nil]
    omega
  · have := dec_length_le (n := roundQ p.fmtTie (t.toInt.natAbs * 5) / 10) (k := 2) (by omega) (by omega)
    have := signOf_length_le p.fmtNegzero t.toInt (roundQ p.fmtTie (t.toInt.natAbs * 5))
    omega

/-- R216: a humidity takes 1 to 3 bytes. A negative one has a sign, but at most two digits. -/
theorem fmtH_length {p : Params} {h : S16} (hr : humiRange h) :
    1 ≤ (fmtH p h).length ∧ (fmtH p h).length ≤ 3 := by
  obtain ⟨hlo, hhi⟩ := hr
  have hq := roundQ_le p.fmtTie h.toInt.natAbs
  have hpos := dec_length_pos (roundQ p.fmtTie h.toInt.natAbs)
  simp only [fmtH, List.length_append]
  refine ⟨by omega, ?_⟩
  by_cases h0 : 0 ≤ h.toInt
  · have := dec_length_le (n := roundQ p.fmtTie h.toInt.natAbs) (k := 3) (by omega) (by omega)
    rw [signOf_of_nonneg _ _ h0, List.length_nil]
    omega
  · have := dec_length_le (n := roundQ p.fmtTie h.toInt.natAbs) (k := 2) (by omega) (by omega)
    have := signOf_length_le p.fmtNegzero h.toInt (roundQ p.fmtTie h.toInt.natAbs)
    omega

/-- R216: over the converter's ranges a message has 9 to 13 bytes. -/
theorem formatMessage_length {p : Params} {t h : S16} (ht : tempRange t) (hh : humiRange h) :
    9 ≤ (formatMessage p t h).length ∧ (formatMessage p t h).length ≤ 13 := by
  obtain ⟨ht1, ht2⟩ := fmtT_length (p := p) ht
  obtain ⟨hh1, hh2⟩ := fmtH_length (p := p) hh
  simp only [formatMessage, List.length_append, List.length_cons, List.length_nil]
  omega

/-! ## The message buffer (R36, R216) -/

/-- The buffer's invariant lasts while the buffer does not move and `SEND` is not what brought SDL here. -/
theorem MessageInv.of_eq {s t : State} (hs : MessageInv s) (hmsg : t.msg = s.msg) (hlen : t.msgLen = s.msgLen)
    (hsdl : t.sdlPc = .led2 → s.sdlPc = .led2) : MessageInv t := by
  rw [MessageInv, hmsg, hlen]
  exact ⟨hs.1, hs.2.1, fun h => hs.2.2 (hsdl h)⟩

theorem MessageInv.spf {s : State} (hs : MessageInv s) : MessageInv (settle (spfRule s)) := by
  obtain ⟨-, -, -, hmsg, hlen, -⟩ := settle_frame s
  refine hs.of_eq hmsg hlen ?_
  rcases settle_sdl s with ⟨-, -, hsdl, -⟩ | ⟨-, -, ⟨-, -, -, hsdl, -⟩ | ⟨-, -, -, hsdl, -⟩ | ⟨e, -, hsdl, -⟩ |
    ⟨-, -, -, hsdl, -⟩⟩ <;> simp [hsdl]

/-- The length register holds the length of a message that fits the buffer. -/
theorem storeMessage_msgLen {m : Bytes} (s : State) (h : m.length ≤ 13) :
    (s.storeMessage m).msgLen.toNat = m.length := by
  simp only [State.storeMessage, BitVec.toNat_ofNat]
  omega

theorem MessageInv.effect {s t : State} (hs : MessageInv s) (hr : RangeInv s) (h : Effect s t) : MessageInv t := by
  cases h with
  | spf => exact hs.spf
  | send h =>
    obtain ⟨hwf, hbound, -⟩ := hs
    obtain ⟨hT, hH⟩ := hr
    obtain ⟨hlo, hhi⟩ := formatMessage_length (p := s.cfg) (hT (by simp [h])) (hH (by simp [h]))
    refine ⟨Memory.store_wf _ _ hwf, Memory.store_bounded _ hbound, fun _ => ?_⟩
    rw [← storeMessage_msgLen s hhi] at hlo hhi
    exact ⟨hlo, hhi⟩
  | callT | callH | bprobe | rinit | rrecv | arm | park | ledon1 | diag | ledon2 =>
    exact hs.of_eq rfl rfl (by simp)
  | _ => exact hs

/-! ## The whole invariant -/

theorem Inv.reset : Inv State.reset :=
  ⟨.reset, .reset, by decide, by decide, .of_pc (by decide) (by decide), by decide, by decide⟩

/-- Of what the host's reset keeps, the parts speak of the parameters alone, where SPF polls and where an error is
recorded. -/
theorem Inv.hostReset (s : State) : Inv s.hostReset := by
  obtain ⟨hhandle, hcoupling, htimer, -, -, hrange, hmessage⟩ := Inv.reset
  exact ⟨hhandle, hcoupling, htimer, by simp [ErrorInv, State.reset],
    .of_pc (by simp [State.reset]) (by simp [State.reset]), hrange, hmessage⟩

theorem Inv.effect {s t : State} (hs : Inv s) (h : Effect s t) : Inv t := by
  obtain ⟨hhandle, hcoupling, htimer, herror, hpoll, hrange, hmessage⟩ := hs
  exact ⟨hhandle.effect h, hcoupling.effect h, htimer.effect h, herror.effect hcoupling h, hpoll.effect h,
    hrange.effect h, hmessage.effect hrange h⟩

theorem Inv.step {s t : State} (hs : Inv s) (h : step s = .next t) : Inv t :=
  step_keeps (fun _ h => h) (fun s _ => Inv.hostReset s) (fun _ _ => Inv.effect) hs h

end Sys2Proof.Machine

section
open Sys2Proof Sys2Proof.Machine

/-- Settles O43: each part of the invariant is kept by every effect, given the parts it rests on. -/
theorem stepKeepsTheInvariant : Obligations.StepKeepsTheInvariant :=
  fun _ _ => Inv.step

/-- Settles O44: SPF keeps the handle inside a cycle and frees it where it goes idle; `START` takes it. -/
theorem stepKeepsTheBusHandle : Obligations.StepKeepsTheBusHandle :=
  ⟨.reset, fun _ _ => HandleInv.step⟩

/-- Settles O45: the coupling needs no other part of the invariant. -/
theorem stepKeepsTheCoupling : Obligations.StepKeepsTheCoupling :=
  ⟨.reset, fun _ _ => CouplingInv.step, fun _ => CouplingInv.idle⟩

/-- Settles O42: R45's values, part by part. -/
theorem resetMeetsTheInvariant : Obligations.ResetMeetsTheInvariant :=
  ⟨.reset, rfl⟩

end

end

section
/-! SUPPORT. What the operations leave alone (10_state.md R21 to R38, R43): the delivery of a `DONE` and SDL's return
register by register, the parameters, the trace, and the host's reset in one equation. -/

namespace Sys2Proof.Machine

/-! ## The delivery of a `DONE` (R188) -/

/-- A delivery touches no register of SPF, none of the timer's counter, the pending tick, the indicator and the message,
and nothing of the environment. -/
@[simp] theorem State.deliver_frame (d : Done) (s : State) :
    (s.deliver d).spfPc = s.spfPc ∧ (s.deliver d).kind = s.kind ∧ (s.deliver d).status = s.status ∧
    (s.deliver d).acc = s.acc ∧ (s.deliver d).raw = s.raw ∧ (s.deliver d).val = s.val ∧
    (s.deliver d).err = s.err ∧ (s.deliver d).busHeld = s.busHeld ∧ (s.deliver d).pollCnt = s.pollCnt ∧
    (s.deliver d).tmr = s.tmr ∧ (s.deliver d).tickPend = s.tickPend ∧ (s.deliver d).indicator = s.indicator ∧
    (s.deliver d).msg = s.msg ∧ (s.deliver d).msgLen = s.msgLen ∧ (s.deliver d).cfg = s.cfg ∧
    (s.deliver d).inbound = s.inbound ∧ (s.deliver d).plan = s.plan ∧ (s.deliver d).answers = s.answers := by
  rcases deliver_cases d s with ⟨v, -, -, e⟩ | ⟨v, -, -, e⟩ | ⟨c, -, -, e⟩ | ⟨c, -, -, e⟩ | ⟨-, -, e⟩ <;> simp [e]

/-- An error latches no reading. -/
@[simp] theorem State.deliver_err_frame (k : Kind) (c : Cause) (s : State) :
    (s.deliver (.err k c)).tVal = s.tVal ∧ (s.deliver (.err k c)).hVal = s.hVal := by
  rcases deliver_cases (.err k c) s with ⟨v, -, h, -⟩ | ⟨v, -, h, -⟩ | ⟨c, -, -, e⟩ | ⟨c, -, -, e⟩ | ⟨-, -, e⟩
  · cases h
  · cases h
  all_goals simp [e]

/-- A numerator disarms nothing and records no failure. -/
@[simp] theorem State.deliver_ok_frame (k : Kind) (v : S16) (s : State) :
    (s.deliver (.ok k v)).armed = s.armed ∧ (s.deliver (.ok k v)).fatalCause = s.fatalCause ∧
    (s.deliver (.ok k v)).fatalKind = s.fatalKind := by
  rcases deliver_cases (.ok k v) s with ⟨v, -, -, e⟩ | ⟨v, -, -, e⟩ | ⟨c, -, h, -⟩ | ⟨c, -, h, -⟩ | ⟨-, -, e⟩
  case inr.inr.inl | inr.inr.inr.inl => cases h
  all_goals simp [e]

theorem State.deliver_hVal_of_temp {d : Done} (s : State) (h : d.kind = .temp) : (s.deliver d).hVal = s.hVal := by
  rcases deliver_cases d s with ⟨v, -, -, e⟩ | ⟨v, -, rfl, -⟩ | ⟨c, -, -, e⟩ | ⟨c, -, -, e⟩ | ⟨-, -, e⟩
  case inr.inl => cases h
  all_goals simp [e]

theorem State.deliver_tVal_of_humi {d : Done} (s : State) (h : d.kind = .humi) : (s.deliver d).tVal = s.tVal := by
  rcases deliver_cases d s with ⟨v, -, rfl, -⟩ | ⟨v, -, -, e⟩ | ⟨c, -, -, e⟩ | ⟨c, -, -, e⟩ | ⟨-, -, e⟩
  case inl => cases h
  all_goals simp [e]

theorem State.deliver_ok_temp {s : State} (v : S16) (h : s.sdlPc = .waitT) :
    s.deliver (.ok .temp v) = { s.emit (.done (.ok .temp v)) with tVal := v, sdlPc := .callH } := by
  simp [State.deliver, h]

theorem State.deliver_ok_humi {s : State} (v : S16) (h : s.sdlPc = .waitH) :
    s.deliver (.ok .humi v) = { s.emit (.done (.ok .humi v)) with hVal := v, sdlPc := .diag } := by
  simp [State.deliver, h]

/-- A failure SDL waits for is fatal (R240). -/
theorem State.deliver_err {s : State} (c : Cause) (h : waiting s) :
    s.deliver (.err s.kind c) = (s.emit (.done (.err s.kind c))).fatalEntry s.kind c := by
  rcases h with ⟨hs, hk⟩ | ⟨hs, hk⟩ <;> simp [State.deliver, hs, hk]

/-! ## Micro-operations that emit a `DONE` -/

/-- The numerator reported is the one in `val` (R127). -/
theorem spfRule_ok_val {s t : State} {k : Kind} {v : S16} (h : spfRule s = (t, some (.ok k v))) : t.val = v := by
  obtain ⟨-, -, -, -, -, -, -, -, -, -, -, -, -, -, -, -, -, -, ⟨c, hd, -⟩ | ⟨hconv, -, -⟩⟩ := spfRule_some h
  · cases hd
  · simp only [spfRule, hconv, convRule, Prod.mk.injEq, Option.some.injEq, Done.ok.injEq] at h
    obtain ⟨rfl, -, rfl⟩ := h
    rfl

/-- Only a data read that does not fail writes `acc`, and that emits no `DONE` (R126). -/
theorem spfRule_some_acc {s t : State} {d : Done} (h : spfRule s = (t, some d)) : t.acc = s.acc := by
  have ht := congrArg Prod.fst h
  have hd := congrArg Prod.snd h
  cases hp : s.spfPc <;> simp only [spfRule, hp] at ht hd
  case prbTgl | prbId | idle => cases hd
  case cmd => rcases wrcmdRule_cases s with ⟨-, r⟩ | ⟨-, r⟩ <;> simp [← ht, r, spfFail]
  case poll =>
    rcases rdstRule_cases s with ⟨-, r⟩ | ⟨-, -, r⟩ | ⟨-, -, -, r⟩ | ⟨-, -, -, r⟩ <;> simp [← ht, r, spfFail]
  case data =>
    rcases rddtRule_cases s with ⟨-, r⟩ | ⟨-, r⟩
    · simp [← ht, r, spfFail]
    · simp [r] at hd
  case conv => simp [← ht, convRule]

/-- SDL's return changes nothing, or delivers a `DONE` of the kind waited for. -/
theorem waitDone_eq_deliver (k : Kind) (wait : SdlPc) (s : State) : waitDone k wait s = s ∨
    ∃ t d, spfRule s = (t, some d) ∧ d.kind = k ∧ waitDone k wait s = t.deliver d := by
  rw [waitDone_eq]
  split
  · next h =>
    rcases settle_cases s with ⟨t, hr, -⟩ | ⟨t, d, hr, e⟩
    · simp [hr] at h
    · exact .inr ⟨t, d, hr, by simpa [hr] using h.2, e⟩
  · exact .inl rfl

/-- SDL's return keeps what neither a `DONE`'s micro-operation nor its delivery writes. -/
@[simp] theorem waitDone_frame (k : Kind) (wait : SdlPc) (s : State) :
    (waitDone k wait s).acc = s.acc ∧ (waitDone k wait s).kind = s.kind ∧ (waitDone k wait s).tmr = s.tmr ∧
    (waitDone k wait s).tickPend = s.tickPend ∧ (waitDone k wait s).indicator = s.indicator ∧
    (waitDone k wait s).msg = s.msg ∧ (waitDone k wait s).msgLen = s.msgLen ∧ (waitDone k wait s).cfg = s.cfg ∧
    (waitDone k wait s).inbound = s.inbound ∧ (waitDone k wait s).plan = s.plan := by
  rcases waitDone_eq_deliver k wait s with e | ⟨t, d, hr, -, e⟩
  · simp [e]
  · obtain ⟨-, -, -, hkind, -, -, htmr, htick, hind, -, -, hmsg, hlen, -, -, hcfg, hplan, hin, -⟩ := spfRule_some hr
    simp [e, spfRule_some_acc hr, hkind, htmr, htick, hind, hmsg, hlen, hcfg, hplan, hin]

@[simp] theorem waitDone_temp_hVal (wait : SdlPc) (s : State) : (waitDone .temp wait s).hVal = s.hVal := by
  rcases waitDone_eq_deliver .temp wait s with e | ⟨t, d, hr, hk, e⟩
  · rw [e]
  · obtain ⟨-, -, -, -, -, -, -, -, -, -, hhv, -⟩ := spfRule_some hr
    rw [e, State.deliver_hVal_of_temp t hk, hhv]

@[simp] theorem waitDone_humi_tVal (wait : SdlPc) (s : State) : (waitDone .humi wait s).tVal = s.tVal := by
  rcases waitDone_eq_deliver .humi wait s with e | ⟨t, d, hr, hk, e⟩
  · rw [e]
  · obtain ⟨-, -, -, -, -, -, -, -, -, htv, -⟩ := spfRule_some hr
    rw [e, State.deliver_tVal_of_humi t hk, htv]

/-! ## The parameters and the trace (R38, R43) -/

theorem Effect.cfg {s t : State} (h : Effect s t) : t.cfg = s.cfg := by
  cases h with
  | spf =>
    obtain ⟨-, -, -, -, -, hcfg, -⟩ := settle_frame s
    exact hcfg
  | _ => rfl

theorem Effect.trace {s t : State} (h : Effect s t) : ∃ es, t.trace = s.trace ++ es := by
  cases h with
  | spf =>
    obtain ⟨es, hes, -⟩ := settle_trace s
    exact ⟨_, hes.trans (List.append_assoc _ _ _)⟩
  | tuFires | txdone | rxdata => exact ⟨_, List.append_assoc _ _ _⟩
  | unchanged | bprobe | arm | park | acc | shroff => exact ⟨[], (List.append_nil _).symm⟩
  | _ => exact ⟨_, rfl⟩

/-! ## The host's reset (R270) -/

theorem step_of_hostReset {s : State} (h : s.nextSlot = .hostReset) : step s = .next s.afterSlot.hostReset := by
  simp only [step, State.fetch, h]

end Sys2Proof.Machine

section
open Sys2Proof Sys2Proof.Machine

/-- Settles O20: while SPF measures SDL waits for it (`CouplingInv.waiting`), so a `DONE` is consumed where it is
emitted. -/
theorem doneIsEmittedAndConsumedInOneStep : Obligations.DoneIsEmittedAndConsumedInOneStep := by
  intro s t i hc hi ht
  obtain rfl : settle (spfRule s) = t := by simpa [exec_spf hi] using ht
  obtain ⟨htmr, htick, hind, hmsg, hlen, -⟩ := settle_frame s
  obtain ⟨es, htrace, hes⟩ := settle_trace s
  have hquiet : ∀ d, .done d ∉ es := by
    rintro d hd
    rcases hes with rfl | rfl | ⟨e, rfl, w, rlen, n, r, rfl, -⟩ <;> simp at hd
  rcases settle_cases s with ⟨t, hr, e⟩ | ⟨t, d, hr, e⟩
  · obtain ⟨hsdl, ha, -, -, -, htv, hhv, -, -, hfc, hfk, -, -, herr, -⟩ := spfRule_none hr
    refine ⟨es, by simpa [hr] using htrace, ⟨htmr, htick, hind, hmsg, hlen⟩, .inl ?_⟩
    rw [e]
    exact ⟨hquiet, hsdl, ha, htv, hhv, hfc, hfk, herr⟩
  · have hwait := hc.waiting (spfRule_some_measuring (congrArg Prod.snd hr))
    obtain ⟨hidle, hbus, hdk, hk, hsdl, ha, -, -, -, htv, hhv, -, -, hfc, hfk, -, -, -, hd⟩ := spfRule_some hr
    have hwait' : waiting t := by simpa only [waiting, hsdl, hk] using hwait
    refine ⟨es ++ [.done d], by simpa [hr] using htrace, ⟨htmr, htick, hind, hmsg, hlen⟩,
      .inr ⟨es, d, rfl, hquiet, hwait, hdk, ?_⟩⟩
    simp only [e, State.deliver_frame, hidle, hbus, true_and]
    rcases hd with ⟨c, rfl, herr, hne, -⟩ | ⟨-, herr, rfl⟩
    · rw [← hk, State.deliver_err c hwait']
      exact ⟨rfl, rfl, rfl, herr, hne, rfl, htv, hhv⟩
    · have hval := spfRule_ok_val hr
      rcases hwait with ⟨hs, hkind⟩ | ⟨hs, hkind⟩ <;> rw [hkind] at hval ⊢
      · rw [State.deliver_ok_temp _ (hsdl.trans hs)]
        exact ⟨hval.symm, rfl, rfl, hhv, ha, herr, hfc, hfk⟩
      · rw [State.deliver_ok_humi _ (hsdl.trans hs)]
        exact ⟨hval.symm, rfl, rfl, htv, ha, herr, hfc, hfk⟩

/-- Settles O51: by the effects an operation can have; the host's reset empties the trace but keeps the parameters. -/
theorem parametersStayAndTheTraceGrows : Obligations.ParametersStayAndTheTraceGrows := by
  intro s t h
  rcases step_cases h with ⟨hreset, rfl⟩ | rfl | ⟨i, c, -, -, he⟩
  · exact ⟨rfl, fun hn => absurd hreset hn⟩
  · exact ⟨rfl, fun _ => ⟨[], (List.append_nil _).symm⟩⟩
  · exact ⟨(exec_effect he).cfg, fun _ => (exec_effect he).trace⟩

/-- Settles O10: the host's reset after its slot is taken, field by field. -/
theorem resetInAnyState : Obligations.ResetInAnyState := by
  refine ⟨⟨rfl, rfl, rfl, rfl, rfl, rfl, rfl, rfl⟩, fun s h => ?_⟩
  rw [step_of_hostReset h, State.hostReset, afterSlot_eq, h]
  rfl

/-- Settles O40: operation by operation; a disabled one changes nothing, and where SPF ends a measurement the delivery
writes what the kind of its `DONE` allows. -/
theorem registersAreWrittenOnlyByTheirOperations : Obligations.RegistersAreWrittenOnlyByTheirOperations := by
  intro i s t h
  cases i with
  | btCmdt | btCmdh | btStat | btData | btId | halt | txdone | rxdata | acc | shroff =>
    cases h
    simp [xferCmdt, xferCmdh, xferStat, xferData, xferId, memRead, memWrite, usesBus]
  | startT | startH | callT | callH =>
    cases h
    simp only [callStart]
    split <;> simp
  | tgl | rdid | bprobe | rinit | rrecv | arm | park | ledon1 | diag | send | ledon2 | tick =>
    cases h
    split <;> simp [tglRule, rdidRule, xferId, memRead, usesBus]
  | tu =>
    cases h
    split
    · split <;> simp
    · simp
  | wrcmd =>
    cases h
    split
    · rcases wrcmdRule_cases s with ⟨-, r⟩ | ⟨-, r⟩ <;> simp [r, settle, spfFail, usesBus]
    · simp
  | rdst =>
    cases h
    split
    · rcases rdstRule_cases s with ⟨-, r⟩ | ⟨-, -, r⟩ | ⟨-, -, -, r⟩ | ⟨-, -, -, r⟩ <;>
        simp [r, settle, spfFail, usesBus]
    · simp
  | rddt =>
    cases h
    split
    · rcases rddtRule_cases s with ⟨-, r⟩ | ⟨-, r⟩ <;> simp [r, settle, spfFail, usesBus]
    · simp
  | conv =>
    cases h
    split
    · simp [settle, convRule]
    · simp
  | waitT | waitH =>
    cases h
    simp [usesBus]

/-- Settles O41: every other operation keeps the buffer whole (O40), and a store leaves the bytes past its own alone. -/
theorem messageBufferFrame : Obligations.MessageBufferFrame := by
  intro i s t hwf h
  constructor
  · intro hi
    obtain ⟨-, -, hwrite, -⟩ := registersAreWrittenOnlyByTheirOperations i s t h
    obtain ⟨hmsg, hlen⟩ : t.msg = s.msg ∧ t.msgLen = s.msgLen := by
      rw [← not_ne_iff, ← not_ne_iff (a := t.msgLen), ← not_or]
      exact fun hne => hi (hwrite hne)
    exact ⟨hlen, fun a => by rw [hmsg]⟩
  · rintro rfl a ha
    cases h
    split
    · change (s.msg.store 0 _).read a = _
      rw [Memory.read_store 0 a _ hwf, dif_neg]
      simp only [List.length_take, msgSize]
      omega
    · rfl

end

end

section
/-! SUPPORT. The memory traffic of the block (20_memory.md): what the bus transactions of SPF bring back, the message
`SEND` stores, and that an event touches neither the bus nor the sequencers. -/

namespace Sys2Proof.Machine

/-! ## Answered transactions (R77) -/

/-- R77: any positive count is success. -/
theorem failed_eq_false_iff {a : BusAnswer} : failed a = false ↔ a.n ≠ 0 := by
  simp [failed]

theorem wrcmdRule_of_answered {s : State} (h : s.answer.n ≠ 0) : wrcmdRule s =
    ({ s.afterBus [s.cfg.configReg, commandOf s.cfg s.kind] 0 with spfPc := .poll }, none) := by
  rcases wrcmdRule_cases s with ⟨hf, -⟩ | ⟨-, r⟩
  · simp [failed_eq_false_iff.2 h] at hf
  · exact r

theorem rddtRule_of_answered {s : State} (h : s.answer.n ≠ 0) : rddtRule s =
    ({ accumulate s.answer.b0 s.answer.b1 (s.afterBus [s.cfg.dataReg] 2) with spfPc := .conv }, none) := by
  rcases rddtRule_cases s with ⟨hf, -⟩ | ⟨-, r⟩
  · simp [failed_eq_false_iff.2 h] at hf
  · exact r

/-- R64, R102: the byte read first is the high half of the accumulator. -/
theorem acc16_pair (b0 b1 : Byte) : acc16 [b0, b1] = b0 ++ b1 := by
  have happend := BitVec.setWidth_append_eq_shiftLeft_setWidth_or (w'' := 16) (b := b0) (b' := b1)
  rw [BitVec.setWidth_eq] at happend
  simp [acc16, happend]

/-! ## The message stored (R65, R181) -/

/-- A message that fits the buffer is read back byte by byte, and past it the buffer reads as before. -/
theorem read_storeMessage {s : State} {m : Bytes} (a : Nat) (hwf : s.msg.wf = true) (hfit : m.length ≤ msgSize) :
    (s.storeMessage m).msg.read a = if h : a < m.length then m[a] else s.msg.read a := by
  simp [List.take_of_length_le hfit, Memory.read_store 0 a m hwf]

/-! ## The events of an operation on the bus (R67) -/

theorem busEventOk_of_isTransaction {p : Params} {e : Event} (h : isTransaction p e) : busEventOk p e := by
  obtain ⟨w, rlen, n, r, rfl, hw, hr⟩ := h
  exact ⟨rfl, hw, hr⟩

/-- What an operation adds to the trace holds no `BUS` event but a transaction's. -/
theorem Effect.busEvents {s t : State} (h : Effect s t) :
    ∃ es, t.trace = s.trace ++ es ∧ ∀ e ∈ es, busEventOk s.cfg e := by
  cases h with
  | transaction w rlen hw =>
    obtain ⟨e, htrace, he⟩ := afterBus_event hw
    exact ⟨[e], htrace, by simpa only [List.forall_mem_singleton] using busEventOk_of_isTransaction he⟩
  | spf =>
    obtain ⟨es, htrace, hes⟩ := settle_trace s
    refine ⟨_, htrace.trans (List.append_assoc _ _ _), fun e he => ?_⟩
    rcases List.mem_append.1 he with he | he
    · rcases hes with rfl | rfl | ⟨e', rfl, htx⟩
      · cases he
      · cases List.mem_singleton.1 he; trivial
      · cases List.mem_singleton.1 he; exact busEventOk_of_isTransaction htx
    · obtain ⟨d, -, rfl⟩ : ∃ d, (spfRule s).2 = some d ∧ Event.done d = e := by simpa using he
      trivial
  | rxdata =>
    refine ⟨_, List.append_assoc _ _ _, ?_⟩
    rcases receiveLine_cases s.cfg s.timestamp s.inbound with hl | hl <;> simp [hl, busEventOk]
  | tuFires | txdone => exact ⟨_, List.append_assoc _ _ _, by simp [busEventOk]⟩
  | unchanged | bprobe | arm | park | acc | shroff => exact ⟨[], (List.append_nil _).symm, by simp [busEventOk]⟩
  | _ => exact ⟨_, rfl, by simp [busEventOk]⟩

/-! ## Turns that are events (R61, R186) -/

/-- A turn of no sequencer runs an operation of the event interface. -/
theorem step_of_eventTurn {s : State} {τ : Turn} (h : s.nextSlot = .turn τ) (hspf : τ ≠ .spf) (hsdl : τ ≠ .sdl) :
    ∃ i : Instr, i.format = .evt ∧ step s = exec i s.afterSlot := by
  cases τ with
  | spf => exact absurd rfl hspf
  | sdl => exact absurd rfl hsdl
  | tu => exact ⟨.tu, rfl, step_of_tuTurn h⟩
  | tick => exact ⟨.tick, rfl, step_of_tickTurn h⟩
  | txdone => exact ⟨.txdone, rfl, step_of_txdoneTurn h⟩
  | rxdata p => exact ⟨.rxdata, rfl, step_of_rxdataTurn h⟩

/-- An event leaves the bus agent's answers and both program counters alone, and what it adds to the trace is no `BUS`
and no `RADIO_SEND`. -/
theorem exec_evt_frame {i : Instr} {s t : State} (hi : i.format = .evt) (h : exec i s = .next t) :
    t.answers = s.answers ∧ t.spfPc = s.spfPc ∧ t.sdlPc = s.sdlPc ∧
    ∃ es, t.trace = s.trace ++ es ∧ ∀ e ∈ es, (∀ dev w rlen n r, e ≠ .bus dev w rlen n r) ∧
      ∀ dst payload, e ≠ .radioSend dst payload := by
  cases i with
  | tu =>
    cases h
    split
    · split
      · exact ⟨rfl, rfl, rfl, [.tu, .tick], List.append_assoc _ _ _, by simp⟩
      · exact ⟨rfl, rfl, rfl, [.tu], rfl, by simp⟩
    · exact ⟨rfl, rfl, rfl, [.tu], rfl, by simp⟩
  | tick =>
    cases h
    split
    · exact ⟨rfl, rfl, rfl, [.tick], rfl, by simp⟩
    · exact ⟨rfl, rfl, rfl, [], (List.append_nil _).symm, by simp⟩
  | txdone => cases h; exact ⟨rfl, rfl, rfl, [.txdone, .ind false], List.append_assoc _ _ _, by simp⟩
  | rxdata =>
    cases h
    refine ⟨rfl, rfl, rfl, _, List.append_assoc _ _ _, ?_⟩
    rcases receiveLine_cases s.cfg s.timestamp s.inbound with hl | hl <;> simp [hl]
  | _ => cases hi

end Sys2Proof.Machine

section
open Sys2Proof Sys2Proof.Machine

/-- Settles O47: the host's reset empties the trace, and an operation adds no `BUS` event but a transaction's. -/
theorem everyBusEventIsATransaction : Obligations.EveryBusEventIsATransaction := by
  intro s t hs h
  refine step_keeps (P := fun u => ∀ e ∈ u.trace, busEventOk u.cfg e) (fun _ hu => hu) (fun _ _ => ?_)
    (fun u v hu huv => ?_) hs h
  · simp [State.hostReset, State.reset]
  · obtain ⟨es, htrace, hes⟩ := huv.busEvents
    rw [htrace, huv.cfg]
    exact List.forall_mem_append.2 ⟨hu, hes⟩

/-- Settles O50: such a turn runs an operation of the event interface. -/
theorem eventsNeverTouchTheBus : Obligations.EventsNeverTouchTheBus := by
  intro s t τ hturn hspf hsdl h
  obtain ⟨i, hi, hstep⟩ := step_of_eventTurn hturn hspf hsdl
  simpa only [State.afterSlot_answers, State.afterSlot_spfPc, State.afterSlot_sdlPc, State.afterSlot_trace] using
    exec_evt_frame hi (hstep.symm.trans h)

/-- Settles O14: the count is not zero, so the command write succeeds. -/
theorem wrcmdResult : Obligations.WrcmdResult := by
  intro s hpc hn
  have hexec : exec .wrcmd s = .next (settle (wrcmdRule s)) := congrArg _ (if_pos hpc)
  rw [hexec, wrcmdRule_of_answered hn]
  rfl

/-- Settles O16: the count is not zero, so the two bytes read are accumulated. -/
theorem rddtResult : Obligations.RddtResult := by
  intro s hpc hn
  have hexec : exec .rddt s = .next (settle (rddtRule s)) := congrArg _ (if_pos hpc)
  rw [hexec, rddtRule_of_answered hn, ← acc16_pair]
  rfl

/-- Settles O29: over the converter's ranges the message fits the buffer, so none of it is cut. -/
theorem sendResult : Obligations.SendResult := by
  intro s hpc hwf ht hh
  obtain ⟨-, hfit⟩ := formatMessage_length (p := s.cfg) ht hh
  refine ⟨_, _, congrArg _ (if_pos hpc), Memory.store_wf _ _ hwf, storeMessage_msgLen s hfit, fun a ha => ?_,
    fun a ha => ?_⟩
  · exact (read_storeMessage a hwf hfit).trans (dif_pos ha)
  · exact (read_storeMessage a hwf hfit).trans (dif_neg (by omega))

end

end

section
/-! SUPPORT. The encoding (30_encoding.md): the two directions between an operation and its code, the codes that select
none, and the balance of `START` and `DONE` on the handshake interface. -/

namespace Sys2Proof

/-! ## From an operation to its code and back (R90 to R100, R111) -/

/-- The rows of the tables, put together: every operation's code decodes to it. -/
theorem decode_encodeBytes (i : Instr) : Laws.RoundTrip.Statement i :=
  match i with
  | .btCmdt => Laws.RoundTrip.btCmdt
  | .btCmdh => Laws.RoundTrip.btCmdh
  | .btStat => Laws.RoundTrip.btStat
  | .btData => Laws.RoundTrip.btData
  | .btId => Laws.RoundTrip.btId
  | .startT => Laws.RoundTrip.startT
  | .startH => Laws.RoundTrip.startH
  | .tgl => Laws.RoundTrip.tgl
  | .rdid => Laws.RoundTrip.rdid
  | .wrcmd => Laws.RoundTrip.wrcmd
  | .rdst => Laws.RoundTrip.rdst
  | .rddt => Laws.RoundTrip.rddt
  | .conv => Laws.RoundTrip.conv
  | .bprobe => Laws.RoundTrip.bprobe
  | .rinit => Laws.RoundTrip.rinit
  | .rrecv => Laws.RoundTrip.rrecv
  | .arm => Laws.RoundTrip.arm
  | .park => Laws.RoundTrip.park
  | .ledon1 => Laws.RoundTrip.ledon1
  | .callT => Laws.RoundTrip.callT
  | .waitT => Laws.RoundTrip.waitT
  | .callH => Laws.RoundTrip.callH
  | .waitH => Laws.RoundTrip.waitH
  | .diag => Laws.RoundTrip.diag
  | .send => Laws.RoundTrip.send
  | .ledon2 => Laws.RoundTrip.ledon2
  | .halt => Laws.RoundTrip.halt
  | .tu => Laws.RoundTrip.tu
  | .tick => Laws.RoundTrip.tick
  | .txdone => Laws.RoundTrip.txdone
  | .rxdata => Laws.RoundTrip.rxdata
  | .acc k b0 b1 => Laws.RoundTrip.acc k b0 b1
  | .shroff k => Laws.RoundTrip.shroff k

/-! ## From a code to its operation (R90, R107, R111) -/

/-- `code` is the whole code of the well-formed operation `i` at the interface `fmt`. -/
def HasCode (p : Params) (fmt : Format) (code : Bytes) (i : Instr) : Prop :=
  i.wf p = true ∧ i.format = fmt ∧ code = encodeBytes p i

/-- The row of number `n` in a numbered format, with its operand bytes. -/
theorem HasCode.of_toNat {p : Params} {fmt : Format} {b : Byte} {operands : Bytes} {i : Instr} {n : Nat}
    (hb : b.toNat = n) (h : HasCode p fmt (BitVec.ofNat 8 n :: operands) i) : HasCode p fmt (b :: operands) i := by
  have hn : BitVec.ofNat 8 n = b := by simp [← hb]
  rwa [hn] at h

theorem hasCode_of_decodeCmd {p : Params} {b : Byte} {i : Instr} (h : decodeCmd b = .ok i) :
    HasCode p .cmd [b] i := by
  unfold decodeCmd at h
  split at h <;> cases h
  all_goals exact .of_toNat ‹_› ⟨rfl, rfl, rfl⟩

theorem hasCode_of_decodeUspf {p : Params} {b : Byte} {i : Instr} (h : decodeUspf b = .ok i) :
    HasCode p .uspf [b] i := by
  unfold decodeUspf at h
  split at h <;> cases h
  all_goals exact .of_toNat ‹_› ⟨rfl, rfl, rfl⟩

theorem hasCode_of_decodeUsdl {p : Params} {b : Byte} {i : Instr} (h : decodeUsdl b = .ok i) :
    HasCode p .usdl [b] i := by
  unfold decodeUsdl at h
  split at h <;> cases h
  all_goals exact .of_toNat ‹_› ⟨rfl, rfl, rfl⟩

theorem hasCode_of_decodeEvt {p : Params} {b : Byte} {i : Instr} (h : decodeEvt b = .ok i) :
    HasCode p .evt [b] i := by
  unfold decodeEvt at h
  split at h <;> cases h
  all_goals exact .of_toNat ‹_› ⟨rfl, rfl, rfl⟩

/-- The second command byte is tried when the first does not match, so the two differ (R111). -/
theorem hasCode_of_decodeBusW2 {p : Params} {reg cmd : Byte} {i : Instr} (h : decodeBusW2 p reg cmd = .ok i) :
    HasCode p .busW2 [reg, cmd] i := by
  unfold decodeBusW2 at h
  split_ifs at h with hreg htemp hhumi <;> cases h
  · exact ⟨rfl, rfl, by rw [hreg, htemp]; rfl⟩
  · exact ⟨bne_iff_ne.2 (hhumi ▸ htemp), rfl, by rw [hreg, hhumi]; rfl⟩

/-- The identifier register is tried when the status register does not match, so the two differ (R111). -/
theorem hasCode_of_decodeBusW1R1 {p : Params} {reg : Byte} {i : Instr} (h : decodeBusW1R1 p reg = .ok i) :
    HasCode p .busW1R1 [reg] i := by
  unfold decodeBusW1R1 at h
  split_ifs at h with hstat hid <;> cases h
  · exact ⟨rfl, rfl, by rw [hstat]; rfl⟩
  · exact ⟨bne_iff_ne.2 (hid ▸ hstat), rfl, by rw [hid]; rfl⟩

theorem hasCode_of_decodeBusW1R2 {p : Params} {reg : Byte} {i : Instr} (h : decodeBusW1R2 p reg = .ok i) :
    HasCode p .busW1R2 [reg] i := by
  unfold decodeBusW1R2 at h
  split_ifs at h with hdata
  cases h
  exact ⟨rfl, rfl, by rw [hdata]; rfl⟩

/-- What reading an operation off `bs` means: a code of it, and `rest` behind the code. -/
def Reads (p : Params) (fmt : Format) (bs : Bytes) (i : Instr) (rest : Bytes) : Prop :=
  ∃ code, HasCode p fmt code i ∧ bs = code ++ rest

/-- A format without operands passes on what stands behind the code. -/
theorem Reads.of_map {p : Params} {fmt : Format} {code rest rest' : Bytes} {i : Instr} {e : Except Reject Instr}
    (h : e.map (·, rest') = .ok (i, rest)) (hcode : ∀ {i}, e = .ok i → HasCode p fmt code i) :
    Reads p fmt (code ++ rest') i rest := by
  cases e with
  | error => cases h
  | ok => cases h; exact ⟨code, hcode rfl, rfl⟩

/-- An `ACC` code is three bytes, a `SHROFF` code one. -/
theorem reads_of_decodeStage {p : Params} {b : Byte} {rest rest' : Bytes} {i : Instr}
    (h : decodeStage b rest' = .ok (i, rest)) : Reads p .stage (b :: rest') i rest := by
  unfold decodeStage at h
  split at h
  case h_1 hn | h_2 hn =>
    split at h <;> cases h
    exact ⟨[b, _, _], .of_toNat hn ⟨rfl, rfl, rfl⟩, rfl⟩
  case h_3 hn | h_4 hn =>
    cases h
    exact ⟨[b], .of_toNat hn ⟨rfl, rfl, rfl⟩, rfl⟩
  case h_5 => cases h

theorem decode_nil (p : Params) (fmt : Format) : decode p fmt [] = .error .truncated := by
  cases fmt <;> rfl

theorem reads_of_decode {p : Params} {i : Instr} {rest : Bytes} :
    ∀ {fmt : Format} {bs : Bytes}, decode p fmt bs = .ok (i, rest) → Reads p fmt bs i rest
  | fmt, [], h => by rw [decode_nil] at h; cases h
  | .busW2, [_], h => by cases h
  | .busW2, _ :: _ :: _, h => .of_map h hasCode_of_decodeBusW2
  | .busW1R1, _ :: _, h => .of_map h hasCode_of_decodeBusW1R1
  | .busW1R2, _ :: _, h => .of_map h hasCode_of_decodeBusW1R2
  | .cmd, _ :: _, h => .of_map h hasCode_of_decodeCmd
  | .uspf, _ :: _, h => .of_map h hasCode_of_decodeUspf
  | .usdl, _ :: _, h => .of_map h hasCode_of_decodeUsdl
  | .evt, _ :: _, h => .of_map h hasCode_of_decodeEvt
  | .stage, _ :: _, h => reads_of_decodeStage h

/-! ## Codes without a row (R106; logs 15, 22) -/

theorem decode_cmd_unassigned {b : Byte} (p : Params) (rest : Bytes) (h : 2 ≤ b.toNat) :
    decode p .cmd (b :: rest) = .error .unassigned := by
  obtain ⟨n, hn⟩ := Nat.exists_eq_add_of_le' h
  rw [decode, decodeCmd, hn]; rfl

theorem decode_uspf_unassigned {b : Byte} (p : Params) (rest : Bytes) (h : 7 ≤ b.toNat) :
    decode p .uspf (b :: rest) = .error .unassigned := by
  obtain ⟨n, hn⟩ := Nat.exists_eq_add_of_le' h
  rw [decode, decodeUspf, hn]; rfl

theorem decode_usdl_unassigned {b : Byte} (p : Params) (rest : Bytes) (h : 14 ≤ b.toNat) :
    decode p .usdl (b :: rest) = .error .unassigned := by
  obtain ⟨n, hn⟩ := Nat.exists_eq_add_of_le' h
  rw [decode, decodeUsdl, hn]; rfl

theorem decode_evt_unassigned {b : Byte} (p : Params) (rest : Bytes) (h : 4 ≤ b.toNat) :
    decode p .evt (b :: rest) = .error .unassigned := by
  obtain ⟨n, hn⟩ := Nat.exists_eq_add_of_le' h
  rw [decode, decodeEvt, hn]; rfl

theorem decode_stage_unassigned {b : Byte} (p : Params) (rest : Bytes) (h : 4 ≤ b.toNat) :
    decode p .stage (b :: rest) = .error .unassigned := by
  obtain ⟨n, hn⟩ := Nat.exists_eq_add_of_le' h
  rw [decode, decodeStage.eq_def, hn]; rfl

theorem decode_busW2_unassigned_of_reg {p : Params} {reg : Byte} (cmd : Byte) (rest : Bytes)
    (h : reg ≠ p.configReg) : decode p .busW2 (reg :: cmd :: rest) = .error .unassigned := by
  rw [decode, decodeBusW2, if_neg h]; rfl

theorem decode_busW2_unassigned_of_cmd {p : Params} {cmd : Byte} (reg : Byte) (rest : Bytes)
    (htemp : cmd ≠ p.cmdMeasureTemp) (hhumi : cmd ≠ p.cmdMeasureHumi) :
    decode p .busW2 (reg :: cmd :: rest) = .error .unassigned := by
  rw [decode, decodeBusW2, if_neg htemp, if_neg hhumi, ite_self]; rfl

theorem decode_busW1R1_unassigned {p : Params} {reg : Byte} (rest : Bytes) (hstat : reg ≠ p.statusReg)
    (hid : reg ≠ p.idReg) : decode p .busW1R1 (reg :: rest) = .error .unassigned := by
  rw [decode, decodeBusW1R1, if_neg hstat, if_neg hid]; rfl

theorem decode_busW1R2_unassigned {p : Params} {reg : Byte} (rest : Bytes) (h : reg ≠ p.dataReg) :
    decode p .busW1R2 (reg :: rest) = .error .unassigned := by
  rw [decode, decodeBusW1R2, if_neg h]; rfl

/-- The codes 0 and 1 of the stages are `ACC`'s, which has two operand bytes. -/
theorem decode_stage_truncated {b : Byte} {rest : Bytes} (p : Params) (hb : b.toNat < 2) (hrest : rest.length < 2) :
    decode p .stage (b :: rest) = .error .truncated := by
  obtain hn | hn : b.toNat = 0 ∨ b.toNat = 1 := by omega
  all_goals
    rw [decode, decodeStage.eq_def, hn]
    match rest, hrest with
    | [], _ | [_], _ => rfl

end Sys2Proof

namespace Sys2Proof.Machine

/-! ## The handshake (R97) -/

theorem starts_append (es es' : List Event) : starts (es ++ es') = starts es + starts es' := by
  induction es with
  | nil => simp [starts]
  | cons e es ih => cases e <;> simp [starts, ih, Nat.add_right_comm]

theorem dones_append (es es' : List Event) : dones (es ++ es') = dones es + dones es' := by
  induction es with
  | nil => simp [dones]
  | cons e es ih => cases e <;> simp [dones, ih, Nat.add_right_comm]

/-- The handshake lasts when the events added account for what becomes of the measurement in progress. -/
theorem HandshakeInv.of_trace {s t : State} {es : List Event} (hs : HandshakeInv s) (htrace : t.trace = s.trace ++ es)
    (hes : starts es + (SpfPc.measuring s.spfPc).toNat = dones es + (SpfPc.measuring t.spfPc).toNat) :
    HandshakeInv t := by
  simp only [HandshakeInv, htrace, starts_append, dones_append] at hs ⊢
  omega

/-- Without a `DONE` SPF stays on its side of the handshake; with one it leaves a measurement for idle. -/
theorem HandshakeInv.spf {s : State} (hs : HandshakeInv s) : HandshakeInv (settle (spfRule s)) := by
  obtain ⟨es, htrace, hes⟩ := settle_trace s
  have hneutral : starts es = 0 ∧ dones es = 0 := by
    rcases hes with rfl | rfl | ⟨e, rfl, w, rlen, n, r, rfl, -⟩ <;> exact ⟨rfl, rfl⟩
  refine hs.of_trace (htrace.trans (List.append_assoc _ _ _)) ?_
  rw [starts_append, dones_append, hneutral.1, hneutral.2]
  cases hd : (spfRule s).2 with
  | none =>
    obtain ⟨-, hmeas⟩ := spfRule_none_phase (spfRule_eq_of_none hd)
    simp [hmeas, starts, dones]
  | some d =>
    have hidle : (settle (spfRule s)).spfPc = .idle := by
      rcases settle_sdl s with ⟨hnone, -⟩ | ⟨hidle, -⟩
      · cases hnone.symm.trans hd
      · exact hidle
    simp [spfRule_some_measuring hd, hidle, starts, dones]

theorem HandshakeInv.effect {s t : State} (hs : HandshakeInv s) (h : Effect s t) : HandshakeInv t := by
  cases h with
  | spf => exact hs.spf
  | callT _ hidle => exact hs.of_trace (es := [.start .temp]) rfl (by simp [hidle, starts, dones])
  | callH _ hidle => exact hs.of_trace (es := [.start .humi]) rfl (by simp [hidle, starts, dones])
  | tuFires | txdone => exact hs.of_trace (List.append_assoc _ _ _) (by simp [starts, dones])
  | rxdata =>
    refine hs.of_trace (List.append_assoc _ _ _) ?_
    rcases receiveLine_cases s.cfg s.timestamp s.inbound with hl | hl <;> simp [hl, starts, dones]
  | unchanged | bprobe | arm | park | acc | shroff => exact hs
  | _ => exact hs.of_trace rfl (by simp [starts, dones])

/-! ## The status read (R104, R125, R134) -/

/-- R134: the bound is not reached by this read. -/
theorem pollExpired_eq_false_iff {p : Params} {n : Nat} :
    pollExpired p n = false ↔ ∀ limit, p.pollLimit = some limit → n + 1 < limit := by
  cases hl : p.pollLimit <;> simp [pollExpired, hl]

theorem rdstRule_of_clear {s : State} (h : s.answer.n ≠ 0) (hclear : busy s.answer.b0 = false) :
    rdstRule s = ({ s.polled with status := s.answer.b0, spfPc := .data }, none) := by
  have hf := failed_eq_false_iff.2 h
  rcases rdstRule_cases s with ⟨hf', -⟩ | ⟨-, -, r⟩ | ⟨-, hb, -⟩ | ⟨-, hb, -⟩
  · simp [hf] at hf'
  · exact r
  all_goals simp [hclear] at hb

theorem rdstRule_of_busy {s : State} (h : s.answer.n ≠ 0) (hbusy : busy s.answer.b0 = true)
    (hlimit : pollExpired s.cfg s.pollCnt = false) :
    rdstRule s = ({ s.polled with status := s.answer.b0, spfPc := .poll }, none) := by
  have hf := failed_eq_false_iff.2 h
  rcases rdstRule_cases s with ⟨hf', -⟩ | ⟨-, hb, -⟩ | ⟨-, -, he, -⟩ | ⟨-, -, -, r⟩
  · simp [hf] at hf'
  · simp [hbusy] at hb
  · simp [hlimit] at he
  · exact r

/-! ## The datapath stages (R150 to R152) -/

theorem acc16_pair_toNat (b0 b1 : Byte) : (acc16 [b0, b1]).toNat = 256 * b0.toNat + b1.toNat := by
  have hb1 := b1.isLt
  rw [acc16_pair, BitVec.toNat_append, ← Nat.shiftLeft_add_eq_or_of_lt hb1, Nat.shiftLeft_eq, Nat.mul_comm]

theorem shr_toNat (k : Kind) (a : U16) : (shr k a).toNat = a.toNat / 2 ^ shiftOf k := by
  simp [shr, Nat.shiftRight_eq_div_pow]

/-- The offset is exact on what the shift can produce: 14 bits at most (R152). -/
theorem num_shr_toInt (k : Kind) (a : U16) :
    (num k (shr k a)).toInt = ((shr k a).toNat : Int) - (offsetOf k : Int) := by
  have ha := a.isLt
  have hr := shr_toNat k a
  generalize (shr k a) = r at *
  cases k
  all_goals
    simp only [shiftOf, Config.rom] at hr
    simp only [num, offsetOf, offOf, divOf, Config.rom, BitVec.toInt_ofInt, Int.bmod_def]
    omega

end Sys2Proof.Machine

section
open Sys2Proof Sys2Proof.Machine

/-- Settles O1: row by row, `decode_encodeBytes`. -/
theorem decodeOfEncode : Obligations.DecodeOfEncode :=
  fun p i rest hwf => decode_encodeBytes i p rest hwf

/-- Settles O2: format by format, the operation read has the bytes before `rest` as its code. -/
theorem decodedBytesAreTheEncoding : Obligations.DecodedBytesAreTheEncoding := by
  intro p fmt bs rest i h
  obtain ⟨code, ⟨hwf, hfmt, rfl⟩, hbs⟩ := reads_of_decode h
  exact ⟨hwf, hfmt, hbs⟩

/-- Settles O5: interface by interface, and the three ways to end early. -/
theorem codesWithoutARowAreRejected : Obligations.CodesWithoutARowAreRejected := by
  intro p b rest
  exact ⟨decode_cmd_unassigned p rest, decode_uspf_unassigned p rest, decode_usdl_unassigned p rest,
    decode_evt_unassigned p rest, decode_stage_unassigned p rest,
    fun h c => decode_busW2_unassigned_of_reg c rest h, fun _ => decode_busW2_unassigned_of_cmd b rest,
    decode_busW1R1_unassigned rest, decode_busW1R2_unassigned rest, decode_nil p, rfl,
    fun hb => ⟨decode_stage_truncated p hb (by simp), fun _ => decode_stage_truncated p hb (by simp)⟩⟩

/-- Settles O46: the counts move with SPF in and out of a measurement, and the host's reset clears both. -/
theorem everyStartIsAnsweredOnce : Obligations.EveryStartIsAnsweredOnce :=
  fun _ _ => step_keeps (fun _ hs => hs) (fun _ _ => rfl) (fun _ _ => HandshakeInv.effect)

/-- Settles O3: the codes are the pcs', each decoded to its pc's operation. -/
theorem sequencerCodesSelectTheirOperation : Obligations.SequencerCodesSelectTheirOperation := by
  refine ⟨fun _ => ⟨rfl, rfl⟩, rfl, rfl, fun p => ?_⟩
  have huspf (pc : SpfPc) (i : Instr) (h : SpfPc.operation pc = some i) := decode_spfPc p h
  have husdl := decode_sdlPc p
  exact ⟨huspf .prbTgl _ rfl, huspf .prbId _ rfl, rfl, huspf .cmd _ rfl, huspf .poll _ rfl, huspf .data _ rfl,
    huspf .conv _ rfl, decode_uspf_unassigned p [] (by decide), husdl .bootProbe, husdl .bootRinit, husdl .bootRrecv,
    husdl .bootArm, husdl .park, husdl .led1, husdl .callT, husdl .waitT, husdl .callH, husdl .waitH, husdl .diag,
    husdl .send, husdl .led2, husdl .fatal, decode_usdl_unassigned p [] (by decide),
    decode_usdl_unassigned p [] (by decide)⟩

/-- Settles O4: each of the words is its operation's code under the defaults. -/
theorem writtenOutCodesDecode : Obligations.WrittenOutCodesDecode := by
  have h (i : Instr) := decode_encodeBytes i Config.defaults []
  exact ⟨h .btCmdt rfl, h .btCmdh rfl, h .btStat rfl, h .btData rfl, h .btId rfl, h .startT rfl, h .startH rfl,
    h .tu rfl, h .tick rfl, h .txdone rfl, h .rxdata rfl, h (.acc .temp 0x19 0x40) rfl, h (.acc .humi 0x0C 0x80) rfl,
    h (.shroff .temp) rfl, h (.shroff .humi) rfl⟩

/-- Settles O6: R6's values of the constants. -/
theorem perKindConstants : Obligations.PerKindConstants :=
  ⟨⟨rfl, rfl, rfl, rfl⟩, ⟨rfl, rfl, rfl, rfl⟩, fun _ => ⟨rfl, rfl⟩, fun _ => rfl⟩

/-- Settles O15: the count is not zero, so the ready bit decides, and then the bound. -/
theorem rdstResult : Obligations.RdstResult := by
  intro s hpc hn
  have hexec : exec .rdst s = .next (settle (rdstRule s)) := congrArg _ (if_pos hpc)
  rw [hexec]
  refine ⟨fun hclear => ?_, fun hbusy hlimit => ?_⟩
  · rw [rdstRule_of_clear hn hclear]; rfl
  · rw [rdstRule_of_busy hn hbusy (pollExpired_eq_false_iff.2 hlimit)]; rfl

/-- Settles O22: the values are those of `acc16`, `shr` and `num`, and the rows write them and nothing else. -/
theorem datapathStages : Obligations.DatapathStages := fun s =>
  ⟨fun _ b0 b1 => ⟨_, acc16_pair_toNat b0 b1, rfl⟩, ⟨_, _, shr_toNat .temp s.acc, num_shr_toInt .temp s.acc, rfl⟩,
    ⟨_, _, shr_toNat .humi s.acc, num_shr_toInt .humi s.acc, rfl⟩⟩

end

end

section
/-! SUPPORT. The measurement cycle of SPF (40_spf_measure.md): how each micro-operation ends, what a turn of SPF does
with a queued answer, and the runs of a cycle made of them. -/

namespace Sys2Proof.Machine

/-! ## The rows of a measurement at their pcs (R124 to R127) -/

section
variable {s : State}

theorem exec_wrcmd (h : s.spfPc = .cmd) : exec .wrcmd s = .next (settle (wrcmdRule s)) := congrArg _ (if_pos h)

theorem exec_rdst (h : s.spfPc = .poll) : exec .rdst s = .next (settle (rdstRule s)) := congrArg _ (if_pos h)

theorem exec_rddt (h : s.spfPc = .data) : exec .rddt s = .next (settle (rddtRule s)) := congrArg _ (if_pos h)

theorem exec_conv (h : s.spfPc = .conv) : exec .conv s = .next (settle (convRule s)) := congrArg _ (if_pos h)

end

/-! ## The failing exits (R128, R231 to R234, R240) -/

theorem wrcmdRule_of_zero {s : State} (h : s.answer.n = 0) :
    wrcmdRule s = spfFail .eCmd (s.afterBus [s.cfg.configReg, commandOf s.cfg s.kind] 0) := by
  rcases wrcmdRule_cases s with ⟨-, r⟩ | ⟨hf, -⟩
  · exact r
  · exact absurd h (failed_eq_false_iff.1 hf)

theorem rdstRule_of_zero {s : State} (h : s.answer.n = 0) : rdstRule s = spfFail .eStatus s.polled := by
  rcases rdstRule_cases s with ⟨-, r⟩ | ⟨hf, -⟩ | ⟨hf, -⟩ | ⟨hf, -⟩
  · exact r
  all_goals exact absurd h (failed_eq_false_iff.1 hf)

theorem rdstRule_of_expired {s : State} (h : s.answer.n ≠ 0) (hbusy : busy s.answer.b0 = true)
    (hlimit : pollExpired s.cfg s.pollCnt = true) :
    rdstRule s = spfFail .eTimeout { s.polled with status := s.answer.b0 } := by
  have hf := failed_eq_false_iff.2 h
  rcases rdstRule_cases s with ⟨hf', -⟩ | ⟨-, hb, -⟩ | ⟨-, -, -, r⟩ | ⟨-, -, he, -⟩
  · simp [hf] at hf'
  · simp [hbusy] at hb
  · exact r
  · simp [hlimit] at he

theorem rddtRule_of_zero {s : State} (h : s.answer.n = 0) :
    rddtRule s = spfFail .eData (s.afterBus [s.cfg.dataReg] 2) := by
  rcases rddtRule_cases s with ⟨-, r⟩ | ⟨hf, -⟩
  · exact r
  · exact absurd h (failed_eq_false_iff.1 hf)

/-- R134: the bound is reached by this read. -/
theorem pollExpired_of_le {p : Params} {n limit : Nat} (hp : p.pollLimit = some limit) (h : limit ≤ n + 1) :
    pollExpired p n = true := by
  simp [pollExpired, hp, h]

/-- The fail exit while SDL waits: SPF goes idle and SDL takes the fatal entry in the same step. -/
theorem settle_spfFail {s : State} (e : Cause) (h : waiting s) : settle (spfFail e s) = { s with
    err := e, busHeld := false, spfPc := .idle
    fatalKind := s.kind, fatalCause := e, armed := false, sdlPc := .fatal
    trace := s.trace ++ [.done (.err s.kind e)] } :=
  State.deliver_err (s := (spfFail e s).1) e h

/-! ## The successful exit (R127, R177, R179) -/

theorem settle_convRule_temp {s : State} (hw : s.sdlPc = .waitT) (hk : s.kind = .temp) :
    settle (convRule s) = { s with
      raw := shr .temp s.acc, val := num .temp (shr .temp s.acc), busHeld := false, spfPc := .idle
      tVal := num .temp (shr .temp s.acc), sdlPc := .callH
      trace := s.trace ++ [.done (.ok .temp (num .temp (shr .temp s.acc)))] } := by
  simp [settle, convRule, hk, hw, State.deliver_ok_temp]

theorem settle_convRule_humi {s : State} (hw : s.sdlPc = .waitH) (hk : s.kind = .humi) :
    settle (convRule s) = { s with
      raw := shr .humi s.acc, val := num .humi (shr .humi s.acc), busHeld := false, spfPc := .idle
      hVal := num .humi (shr .humi s.acc), sdlPc := .diag
      trace := s.trace ++ [.done (.ok .humi (num .humi (shr .humi s.acc)))] } := by
  simp [settle, convRule, hk, hw, State.deliver_ok_humi]

/-- SDL's return is SPF's `CONV` when that is what SPF is about to do (log 13). -/
theorem waitDone_of_conv {s : State} {wait : SdlPc} (hpc : s.spfPc = .conv) (hw : s.sdlPc = wait) :
    waitDone s.kind wait s = settle (convRule s) := by
  have hr : spfRule s = convRule s := by simp only [spfRule, hpc]
  rw [waitDone_eq, hr]
  exact if_pos ⟨hw, rfl⟩

/-! ## Calls (R122, R123, R188) -/

theorem callStart_of_idle {k : Kind} {call wait : SdlPc} {s : State} (hs : s.sdlPc = call) (hp : s.spfPc = .idle) :
    callStart k call wait s = { (s.emit (.start k)).accept k with sdlPc := wait } :=
  if_pos ⟨hs, hp⟩

theorem callStart_of_not_idle {k : Kind} {call wait : SdlPc} {s : State} (hp : s.spfPc ≠ .idle) :
    callStart k call wait s = s :=
  if_neg fun h => hp h.2

/-! ## A queued answer and a queued turn (logs 1, 2) -/

theorem State.answer_of_cons {s : State} {a : BusAnswer} {more : List BusAnswer} (h : s.answers = a :: more) :
    s.answer = a := by
  simp only [State.answer, h]

/-- A transaction takes the answer at the head of the queue. -/
theorem State.afterBus_of_cons {s : State} {a : BusAnswer} {more : List BusAnswer} (h : s.answers = a :: more)
    (w : Bytes) (rlen : Nat) : s.afterBus w rlen = { s with
      answers := more, trace := s.trace ++ [.bus 0x40 w rlen a.n (answerBytes a rlen)] } := by
  simp [State.emit, State.afterAnswer, State.answer_of_cons h, h, Config.rom]

theorem spfTurns_add (m n : Nat) (rest : List Slot) : spfTurns (m + n) rest = spfTurns m (spfTurns n rest) := by
  rw [spfTurns, List.replicate_add, List.append_assoc]; rfl

/-! ## The poll loop (R125, R134, R135) -/

theorem statusReads_append (p : Params) (as bs : List BusAnswer) :
    statusReads p (as ++ bs) = statusReads p as ++ statusReads p bs := List.map_append

theorem belowLimit_iff {limit : Option Nat} {n : Nat} : belowLimit limit n ↔ ∀ l, limit = some l → n < l := by
  cases limit <;> simp

/-- The state after status reads answered `as`: the last byte read stands in `status`, the reads are counted. -/
def State.afterReads (as more : List BusAnswer) (rest : List Slot) (s : State) : State := { s with
  status := (as.getLast?.map BusAnswer.b0).getD s.status, pollCnt := s.pollCnt + as.length
  answers := more, plan := rest, trace := s.trace ++ statusReads s.cfg as }

theorem State.afterReads_append (as bs more more' : List BusAnswer) (rest rest' : List Slot) (s : State) :
    (s.afterReads as more' rest').afterReads bs more rest = s.afterReads (as ++ bs) more rest := by
  cases hb : bs.getLast? <;> simp [State.afterReads, statusReads_append, List.getLast?_append, hb, Nat.add_assoc]

theorem State.afterReads_nil (s : State) : s.afterReads [] s.answers s.plan = s := by
  simp [State.afterReads, statusReads]

section
variable {s : State} {a : BusAnswer} {more : List BusAnswer} {rest : List Slot}

/-- SPF's turn runs the rule its pc selects. -/
theorem step_spf_rule {r : State × Option Done} (hplan : s.plan = .turn .spf :: rest)
    (hr : spfRule { s with plan := rest } = r) : step s = .next (settle r) :=
  hr ▸ step_spf hplan

theorem step_cmd_of_answered (hpc : s.spfPc = .cmd) (hplan : s.plan = .turn .spf :: rest)
    (hans : s.answers = a :: more) (ha : a.n ≠ 0) : step s = .next { s with
      spfPc := .poll, answers := more, plan := rest
      trace := s.trace ++ [.bus 0x40 [s.cfg.configReg, commandOf s.cfg s.kind] 0 a.n []] } := by
  obtain rfl := State.answer_of_cons hans
  have hr : spfRule { s with plan := rest } = wrcmdRule { s with plan := rest } := by simp only [spfRule, hpc]
  rw [step_spf_rule hplan (hr.trans (wrcmdRule_of_answered ha)),
    State.afterBus_of_cons (s := { s with plan := rest }) hans]
  rfl

theorem step_data_of_answered (hpc : s.spfPc = .data) (hplan : s.plan = .turn .spf :: rest)
    (hans : s.answers = a :: more) (ha : a.n ≠ 0) : step s = .next { s with
      spfPc := .conv, acc := a.b0 ++ a.b1, answers := more, plan := rest
      trace := s.trace ++ [.bus 0x40 [s.cfg.dataReg] 2 a.n [a.b0, a.b1]] } := by
  obtain rfl := State.answer_of_cons hans
  have hr : spfRule { s with plan := rest } = rddtRule { s with plan := rest } := by simp only [spfRule, hpc]
  rw [step_spf_rule hplan (hr.trans (rddtRule_of_answered ha)),
    State.afterBus_of_cons (s := { s with plan := rest }) hans, ← acc16_pair]
  rfl

theorem step_conv (hpc : s.spfPc = .conv) (hplan : s.plan = .turn .spf :: rest) :
    step s = .next (settle (convRule { s with plan := rest })) :=
  step_spf_rule hplan (by simp only [spfRule, hpc])

theorem step_poll (hpc : s.spfPc = .poll) (hplan : s.plan = .turn .spf :: rest) :
    step s = .next (settle (rdstRule { s with plan := rest })) :=
  step_spf_rule hplan (by simp only [spfRule, hpc])

theorem step_of_busyAnswer (hpc : s.spfPc = .poll) (hplan : s.plan = .turn .spf :: rest)
    (hans : s.answers = a :: more) (ha : busyAnswer a) (hlimit : pollExpired s.cfg s.pollCnt = false) :
    step s = .next (s.afterReads [a] more rest) := by
  obtain rfl := State.answer_of_cons hans
  rw [step_poll hpc hplan, rdstRule_of_busy (s := { s with plan := rest }) (failed_eq_false_iff.1 ha.1) ha.2 hlimit,
    State.polled, State.afterBus_of_cons (s := { s with plan := rest }) hans, ← hpc]
  rfl

theorem step_of_clearAnswer (hpc : s.spfPc = .poll) (hplan : s.plan = .turn .spf :: rest)
    (hans : s.answers = a :: more) (ha : clearAnswer a) :
    step s = .next { s.afterReads [a] more rest with spfPc := .data } := by
  obtain rfl := State.answer_of_cons hans
  rw [step_poll hpc hplan, rdstRule_of_clear (s := { s with plan := rest }) (failed_eq_false_iff.1 ha.1) ha.2,
    State.polled, State.afterBus_of_cons (s := { s with plan := rest }) hans]
  rfl

theorem step_of_lastAnswer (hpc : s.spfPc = .poll) (hplan : s.plan = .turn .spf :: rest)
    (hans : s.answers = a :: more) (ha : busyAnswer a) (hlimit : pollExpired s.cfg s.pollCnt = true) :
    step s = .next (settle (spfFail .eTimeout (s.afterReads [a] more rest))) := by
  obtain rfl := State.answer_of_cons hans
  rw [step_poll hpc hplan, rdstRule_of_expired (s := { s with plan := rest }) (failed_eq_false_iff.1 ha.1) ha.2
    hlimit, State.polled, State.afterBus_of_cons (s := { s with plan := rest }) hans]
  rfl

/-- Busy answers within the limit, if there is one, keep SPF in the loop, with a read for each. -/
theorem run_busyAnswers {as : List BusAnswer} (hpc : s.spfPc = .poll) (hbusy : ∀ a ∈ as, busyAnswer a)
    (hlimit : belowLimit s.cfg.pollLimit (s.pollCnt + as.length)) (hans : s.answers = as ++ more)
    (hplan : s.plan = spfTurns as.length rest) :
    run as.length s = .next (s.afterReads as more rest) := by
  rw [belowLimit_iff] at hlimit
  induction as generalizing s with
  | nil =>
    obtain rfl : s.answers = more := hans
    obtain rfl : s.plan = rest := hplan
    rw [State.afterReads_nil]; rfl
  | cons a as ih =>
    rw [List.length_cons] at hlimit hplan
    have hexp : pollExpired s.cfg s.pollCnt = false :=
      pollExpired_eq_false_iff.2 fun l hl => by have := hlimit l hl; omega
    have hlimit' : ∀ l, s.cfg.pollLimit = some l → s.pollCnt + 1 + as.length < l := fun l hl => by
      have := hlimit l hl; omega
    have hstep := step_of_busyAnswer hpc hplan hans (hbusy a List.mem_cons_self) hexp
    have hrun := ih (s := s.afterReads [a] (as ++ more) (spfTurns as.length rest)) hpc
      (fun b hb => hbusy b (.tail _ hb)) hlimit' rfl rfl
    rw [State.afterReads_append] at hrun
    exact (run_succ hstep).trans hrun

/-- A poll loop that ends: busy answers within the limit, a clear one, and the two bytes. -/
theorem run_pollLoop {as : List BusAnswer} {z d : BusAnswer} (hpc : s.spfPc = .poll)
    (hbusy : ∀ a ∈ as, busyAnswer a) (hz : clearAnswer z) (hd : d.n ≠ 0)
    (hlimit : belowLimit s.cfg.pollLimit (s.pollCnt + as.length)) (hans : s.answers = as ++ z :: d :: more)
    (hplan : s.plan = spfTurns (as.length + 2) rest) :
    run (as.length + 2) s = .next { s.afterReads (as ++ [z]) more rest with
      spfPc := .conv, acc := d.b0 ++ d.b1
      trace := s.trace ++ statusReads s.cfg (as ++ [z]) ++ [.bus 0x40 [s.cfg.dataReg] 2 d.n [d.b0, d.b1]] } := by
  rw [spfTurns_add] at hplan
  have hclear := step_of_clearAnswer (s := s.afterReads as (z :: d :: more) (spfTurns 2 rest)) hpc rfl rfl hz
  rw [State.afterReads_append] at hclear
  rw [run_add (run_busyAnswers hpc hbusy hlimit hans hplan), run_succ hclear,
    run_succ (step_data_of_answered rfl rfl rfl hd)]
  rfl

/-- The state in `S_CONV` of a cycle whose transactions were answered `c`, `as` and `d`. -/
def State.atConv (c : BusAnswer) (as : List BusAnswer) (d : BusAnswer) (more : List BusAnswer) (rest : List Slot)
    (s : State) : State := { s.afterReads as more rest with
  spfPc := .conv, acc := d.b0 ++ d.b1, trace := s.trace ++ cycleEvents s.cfg s.kind c as d }

/-- A cycle from its accepted `START` to its `CONV`. -/
theorem run_cycle {as : List BusAnswer} {c z d : BusAnswer} (hpc : s.spfPc = .cmd) (hcnt : s.pollCnt = 0)
    (hc : c.n ≠ 0) (hbusy : ∀ a ∈ as, busyAnswer a) (hz : clearAnswer z) (hd : d.n ≠ 0)
    (hlimit : belowLimit s.cfg.pollLimit as.length) (hans : s.answers = c :: as ++ z :: d :: more)
    (hplan : s.plan = spfTurns (as.length + 4) rest) :
    run (as.length + 4) s = .next (settle (convRule (s.atConv c (as ++ [z]) d more rest))) := by
  have hturns : spfTurns (as.length + 3) rest = spfTurns (as.length + 2) (.turn .spf :: rest) :=
    spfTurns_add (as.length + 2) 1 rest
  rw [run_succ (step_cmd_of_answered hpc (rest := spfTurns (as.length + 3) rest) hplan hans hc), run_add (n := 1)
    (run_pollLoop rfl hbusy hz hd (by simpa [hcnt] using hlimit) rfl hturns), run_succ (step_conv rfl rfl), run_zero]
  simp [State.atConv, State.afterReads, cycleEvents]

end

end Sys2Proof.Machine

section
open Sys2Proof Sys2Proof.Machine

/-- Settles O54: without a limit every length is within it. -/
theorem busySensorHangsThePollLoop : Obligations.BusySensorHangsThePollLoop := by
  intro s as more rest hpc hnone hbusy hans hplan
  exact run_busyAnswers hpc hbusy (belowLimit_iff.2 (by simp [hnone])) hans hplan

/-- Settles O53: the busy answers, then the clear one, then the data. -/
theorem pollLoopReadsOnceMoreThanBusy : Obligations.PollLoopReadsOnceMoreThanBusy := by
  intro s as c d more rest hpc hbusy hc hd hlimit hans hplan
  rw [run_pollLoop hpc hbusy hc hd hlimit hans hplan]
  simp [State.afterReads, Nat.add_assoc]

/-- Settles O55: the busy answers before the last are below the limit, and the last reaches it. -/
theorem pollLimitEndsTheCycle : Obligations.PollLimitEndsTheCycle := by
  rintro s as more rest _ last hpc hw hcnt hl rfl hbusy hlast hans hplan
  have hlimit : belowLimit s.cfg.pollLimit (s.pollCnt + as.length) := by simp [hl, hcnt]
  rw [spfTurns_add] at hplan
  have hexp : pollExpired s.cfg (s.pollCnt + as.length) = true := pollExpired_of_le hl (by simp [hcnt])
  have hstep := step_of_lastAnswer (s := s.afterReads as (last :: more) (spfTurns 1 rest)) hpc rfl rfl hlast hexp
  rw [State.afterReads_append, settle_spfFail (s := s.afterReads _ _ _) _ hw] at hstep
  rw [run_add (run_busyAnswers hpc hbusy hlimit hans hplan), run_succ hstep, run_zero]
  simp [State.afterReads, hcnt]

/-- Settles O56: the cycle up to `CONV`, whose numerator SDL latches for the kind it waits for. -/
theorem successfulCycle : Obligations.SuccessfulCycle := by
  intro s c as z d more rest hpc hw hcnt hc hbusy hz hd hlimit hans hplan
  refine ⟨_, run_cycle hpc hcnt hc hbusy hz hd hlimit hans hplan, ?_⟩
  have hacc : (s.atConv c (as ++ [z]) d more rest).acc = acc16 [d.b0, d.b1] := (acc16_pair _ _).symm
  rcases hw with ⟨hw, hk⟩ | ⟨hw, hk⟩
  · rw [settle_convRule_temp (s := s.atConv _ _ _ _ _) hw hk, hacc]
    simp [State.atConv, State.afterReads, hk, convertBytes]
  · rw [settle_convRule_humi (s := s.atConv _ _ _ _ _) hw hk, hacc]
    simp [State.atConv, State.afterReads, hk, convertBytes]

/-- Settles O12: at its own pc each of the two rows is its rule. -/
theorem probeResults : Obligations.ProbeResults := fun _ =>
  ⟨fun hpc => congrArg _ (if_pos hpc), fun hpc => congrArg _ (if_pos hpc)⟩

/-- Settles O21: each row is its transaction (`busXfer`) and nothing else. -/
theorem transactionRows : Obligations.TransactionRows :=
  fun _ => ⟨rfl, rfl, rfl, rfl, rfl⟩

/-- Settles O13: both rows of a rendezvous are `callStart`. -/
theorem callAndStartAreOneStep : Obligations.CallAndStartAreOneStep := by
  intro s
  refine ⟨?_, ?_, ?_⟩
  · rintro i (rfl | rfl) hs hp
    all_goals exact congrArg _ (callStart_of_idle hs hp)
  · rintro i (rfl | rfl) hs hp
    all_goals exact congrArg _ (callStart_of_idle hs hp)
  · intro i hi hp
    simp only [List.mem_cons, List.not_mem_nil, or_false] at hi
    rcases hi with rfl | rfl | rfl | rfl
    all_goals exact congrArg _ (callStart_of_not_idle hp)

/-- Settles O17: `CONV` delivered, and `WAIT` is that step. -/
theorem convAndWaitResults : Obligations.ConvAndWaitResults := by
  intro s i hpc
  constructor
  · intro hw hk hi
    refine ⟨_, _, ⟨shr_toNat .temp s.acc, num_shr_toInt .temp s.acc⟩, ?_⟩
    rw [← settle_convRule_temp hw hk]
    rcases hi with rfl | rfl
    · exact exec_conv hpc
    · exact congrArg _ (hk ▸ waitDone_of_conv hpc hw)
  · intro hw hk hi
    refine ⟨_, _, ⟨shr_toNat .humi s.acc, num_shr_toInt .humi s.acc⟩, ?_⟩
    rw [← settle_convRule_humi hw hk]
    rcases hi with rfl | rfl
    · exact exec_conv hpc
    · exact congrArg _ (hk ▸ waitDone_of_conv hpc hw)

/-- Settles O18: each failing exit is settled while SDL waits for it (`settle_spfFail`). -/
theorem failedMeasurementIsFatal : Obligations.FailedMeasurementIsFatal := by
  intro s hw
  refine ⟨fun hpc hn => ?_, fun hpc hn => ?_, fun hpc hn => ?_, fun limit hpc hn hb hl hle => ?_⟩
  · rw [exec_wrcmd hpc, wrcmdRule_of_zero hn, settle_spfFail (s := s.afterBus _ _) _ hw]
    simp [answerBytes, hn, Config.rom]
  · rw [exec_rdst hpc, rdstRule_of_zero hn, settle_spfFail (s := s.polled) _ hw]
    simp [answerBytes, hn, Config.rom]
  · rw [exec_rddt hpc, rddtRule_of_zero hn, settle_spfFail (s := s.afterBus _ _) _ hw]
    simp [answerBytes, hn, Config.rom]
  · rw [exec_rdst hpc, rdstRule_of_expired hn hb (pollExpired_of_le hl hle),
      settle_spfFail (s := { s.polled with status := s.answer.b0 }) _ hw]
    simp [answerBytes, Config.rom]

end
end

section
/-! SUPPORT. What a measurement cycle depends on (40_spf_measure.md R137): two runs of SPF side by side. -/

namespace Sys2Proof.Machine

/-- Two states in the same place of two cycles begun with the traces `tr` and `tr'`: what the cycle reads is the same in
both, `acc` once the data is read, and so are the events added. -/
structure SameCycle (tr tr' : List Event) (s s' : State) : Prop where
  spfPc : s.spfPc = s'.spfPc
  kind : s.kind = s'.kind
  cfg : s.cfg = s'.cfg
  pollCnt : s.pollCnt = s'.pollCnt
  sdlPc : s.sdlPc = s'.sdlPc
  answers : s.answers = s'.answers
  acc : s.spfPc = .conv → s.acc = s'.acc
  trace : ∃ es, s.trace = tr ++ es ∧ s'.trace = tr' ++ es

/-- Two micro-operations' results in the same place, with the same `DONE`. -/
def SameResult (tr tr' : List Event) (r r' : State × Option Done) : Prop :=
  SameCycle tr tr' r.1 r'.1 ∧ r.2 = r'.2

namespace SameCycle

variable {tr tr' : List Event} {s s' : State}

/-- The next transaction is answered alike: an answer is queued. -/
theorem answer (h : SameCycle tr tr' s s') (hne : s.answers ≠ []) : s.answer = s'.answer := by
  obtain ⟨a, more, hs⟩ := List.exists_cons_of_ne_nil hne
  rw [State.answer_of_cons hs, State.answer_of_cons (h.answers.symm.trans hs)]

theorem emit (h : SameCycle tr tr' s s') (e : Event) : SameCycle tr tr' (s.emit e) (s'.emit e) := by
  obtain ⟨es, hs, hs'⟩ := h.trace
  exact { h with trace := ⟨es ++ [e], by simp [hs], by simp [hs']⟩ }

theorem afterBus (h : SameCycle tr tr' s s') (hne : s.answers ≠ []) (w : Bytes) (rlen : Nat) :
    SameCycle tr tr' (s.afterBus w rlen) (s'.afterBus w rlen) := by
  have hafter : SameCycle tr tr' s.afterAnswer s'.afterAnswer := { h with answers := congrArg List.tail h.answers }
  rw [State.afterBus, State.afterBus, h.answer hne]
  exact hafter.emit _

theorem polled (h : SameCycle tr tr' s s') (hne : s.answers ≠ []) : SameCycle tr tr' s.polled s'.polled := by
  have hbus : SameCycle tr tr' (s.afterBus [s.cfg.statusReg] 1) (s'.afterBus [s'.cfg.statusReg] 1) :=
    h.cfg ▸ h.afterBus hne _ _
  exact { hbus with pollCnt := congrArg Nat.succ h.pollCnt }

/-- The fail exit reads the kind alone. -/
theorem fail (h : SameCycle tr tr' s s') (e : Cause) : SameResult tr tr' (spfFail e s) (spfFail e s') :=
  ⟨{ h with spfPc := rfl, acc := nofun }, by simp [spfFail, h.kind]⟩

/-! ### The micro-operations -/

theorem tgl (h : SameCycle tr tr' s s') : SameCycle tr tr' (tglRule s) (tglRule s') :=
  { h.emit .lineToggle with spfPc := rfl, acc := nofun }

theorem rdid (h : SameCycle tr tr' s s') (hne : s.answers ≠ []) : SameCycle tr tr' (rdidRule s) (rdidRule s') := by
  have hbus : SameCycle tr tr' (s.afterBus [s.cfg.idReg] 1) (s'.afterBus [s'.cfg.idReg] 1) :=
    h.cfg ▸ h.afterBus hne _ _
  exact { hbus with spfPc := rfl, acc := nofun }

theorem wrcmd (h : SameCycle tr tr' s s') (hne : s.answers ≠ []) :
    SameResult tr tr' (wrcmdRule s) (wrcmdRule s') := by
  have ha := h.answer hne
  have hbus : SameCycle tr tr' (s.afterBus [s.cfg.configReg, commandOf s.cfg s.kind] 0)
      (s'.afterBus [s'.cfg.configReg, commandOf s'.cfg s'.kind] 0) := h.cfg ▸ h.kind ▸ h.afterBus hne _ _
  by_cases hn : s.answer.n = 0
  · rw [wrcmdRule_of_zero hn, wrcmdRule_of_zero (ha ▸ hn)]
    exact hbus.fail _
  · rw [wrcmdRule_of_answered hn, wrcmdRule_of_answered (ha ▸ hn)]
    exact ⟨{ hbus with spfPc := rfl, acc := nofun }, rfl⟩

theorem rdst (h : SameCycle tr tr' s s') (hne : s.answers ≠ []) :
    SameResult tr tr' (rdstRule s) (rdstRule s') := by
  have ha := h.answer hne
  have hpolled := h.polled hne
  by_cases hn : s.answer.n = 0
  · rw [rdstRule_of_zero hn, rdstRule_of_zero (ha ▸ hn)]
    exact hpolled.fail _
  · cases hb : busy s.answer.b0 with
    | false =>
      rw [rdstRule_of_clear hn hb, rdstRule_of_clear (ha ▸ hn) (ha ▸ hb)]
      exact ⟨{ hpolled with spfPc := rfl, acc := nofun }, rfl⟩
    | true =>
      have hsame : pollExpired s'.cfg s'.pollCnt = pollExpired s.cfg s.pollCnt := by rw [h.cfg, h.pollCnt]
      cases he : pollExpired s.cfg s.pollCnt with
      | false =>
        rw [rdstRule_of_busy hn hb he, rdstRule_of_busy (ha ▸ hn) (ha ▸ hb) (hsame.trans he)]
        exact ⟨{ hpolled with spfPc := rfl, acc := nofun }, rfl⟩
      | true =>
        rw [rdstRule_of_expired hn hb he, rdstRule_of_expired (ha ▸ hn) (ha ▸ hb) (hsame.trans he)]
        have hread : SameCycle tr tr' { s.polled with status := s.answer.b0 }
          { s'.polled with status := s'.answer.b0 } := { hpolled with }
        exact hread.fail _

/-- The data read makes `acc` the same. -/
theorem rddt (h : SameCycle tr tr' s s') (hne : s.answers ≠ []) :
    SameResult tr tr' (rddtRule s) (rddtRule s') := by
  have ha := h.answer hne
  have hbus : SameCycle tr tr' (s.afterBus [s.cfg.dataReg] 2) (s'.afterBus [s'.cfg.dataReg] 2) :=
    h.cfg ▸ h.afterBus hne _ _
  by_cases hn : s.answer.n = 0
  · rw [rddtRule_of_zero hn, rddtRule_of_zero (ha ▸ hn)]
    exact hbus.fail _
  · rw [rddtRule_of_answered hn, rddtRule_of_answered (ha ▸ hn)]
    exact ⟨{ hbus with spfPc := rfl, acc := fun _ => by simp [accumulate, ha] }, rfl⟩

theorem conv (h : SameCycle tr tr' s s') (hpc : s.spfPc = .conv) :
    SameResult tr tr' (convRule s) (convRule s') :=
  ⟨{ h with spfPc := rfl, acc := nofun }, by simp [convRule, shiftOffset, h.kind, h.acc hpc]⟩

theorem spf (h : SameCycle tr tr' s s') (hne : s.answers ≠ []) :
    SameResult tr tr' (spfRule s) (spfRule s') := by
  have hpc' := h.spfPc.symm
  cases hpc : s.spfPc <;> rw [hpc] at hpc' <;> simp only [spfRule, hpc, hpc']
  case prbTgl => exact ⟨h.tgl, rfl⟩
  case prbId => exact ⟨h.rdid hne, rfl⟩
  case idle => exact ⟨h, rfl⟩
  case cmd => exact h.wrcmd hne
  case poll => exact h.rdst hne
  case data => exact h.rddt hne
  case conv => exact h.conv hpc

/-! ### The delivery of a `DONE` and a run -/

theorem deliver (h : SameCycle tr tr' s s') (d : Done) : SameCycle tr tr' (s.deliver d) (s'.deliver d) := by
  have hsdl : (s.deliver d).sdlPc = (s'.deliver d).sdlPc := by
    simp only [State.deliver, h.sdlPc]
    split
    case h_5 => exact h.sdlPc
    all_goals rfl
  obtain ⟨es, hs, hs'⟩ := h.trace
  exact {
    spfPc := by simpa using h.spfPc
    kind := by simpa using h.kind
    cfg := by simpa using h.cfg
    pollCnt := by simpa using h.pollCnt
    sdlPc := hsdl
    answers := by simpa using h.answers
    acc := by simpa using h.acc
    trace := ⟨es ++ [.done d], by simp [deliver_trace, hs], by simp [deliver_trace, hs']⟩ }

end SameCycle

theorem SameResult.settle {tr tr' : List Event} {r r' : State × Option Done} (h : SameResult tr tr' r r') :
    SameCycle tr tr' (settle r) (settle r') := by
  obtain ⟨s, d⟩ := r
  obtain ⟨s', d'⟩ := r'
  obtain ⟨hs, rfl : d = d'⟩ := h
  cases d with
  | none => exact hs
  | some d => exact hs.deliver d

theorem SameCycle.run {tr tr' : List Event} {n : Nat} {s s' t t' : State} {rest rest' : List Slot}
    (h : SameCycle tr tr' s s') (hlen : n ≤ s.answers.length) (hplan : s.plan = spfTurns n rest)
    (hplan' : s'.plan = spfTurns n rest') (ht : run n s = .next t) (ht' : run n s' = .next t') :
    SameCycle tr tr' t t' := by
  induction n generalizing s s' with
  | zero => cases ht; cases ht'; exact h
  | succ n ih =>
    rw [run_succ (step_spf hplan)] at ht
    rw [run_succ (step_spf hplan')] at ht'
    have hne : s.answers ≠ [] := List.ne_nil_of_length_pos (by omega)
    have hslot : SameCycle tr tr' { s with plan := spfTurns n rest } { s' with plan := spfTurns n rest' } := { h with }
    have hlen' : n ≤ (settle (spfRule { s with plan := spfTurns n rest })).answers.length := by
      rcases settle_answers { s with plan := spfTurns n rest } with hans | hans
      all_goals
        rw [hans]
        simp only [List.length_tail]
        omega
    obtain ⟨-, -, -, -, -, -, hp, -⟩ := settle_frame { s with plan := spfTurns n rest }
    obtain ⟨-, -, -, -, -, -, hp', -⟩ := settle_frame { s' with plan := spfTurns n rest' }
    exact ih (hslot.spf hne).settle hlen' hp hp' ht ht'

end Sys2Proof.Machine

section
open Sys2Proof Sys2Proof.Machine

/-- Settles O57: the two cycles begin in the same place, and a cycle reads nothing else. -/
theorem cycleDependsOnlyOnItsAnswers : Obligations.CycleDependsOnlyOnItsAnswers := by
  intro n s s' t t' rest rest' hpc hpc' hk hcfg hcnt hcnt' hsdl hans hlen hplan hplan' ht ht'
  have hstart : SameCycle s.trace s'.trace s s' :=
    { spfPc := hpc.trans hpc'.symm, kind := hk, cfg := hcfg, pollCnt := hcnt.trans hcnt'.symm, sdlPc := hsdl
      answers := hans, acc := by simp [hpc], trace := ⟨[], by simp, by simp⟩ }
  have hend := hstart.run hlen hplan hplan' ht ht'
  exact ⟨hend.spfPc, hend.sdlPc, hend.trace⟩

end
end

section
/-! SUPPORT. The converter (41_convert.md): the composed conversion as arithmetic on the two bytes, every value of its
range from some byte pair, and the bits it shifts out. -/

namespace Sys2Proof.Machine

/-- R159: accumulate, shift and offset in one equation of integers. -/
theorem convertBytes_toInt (k : Kind) (b0 b1 : Byte) : (convertBytes k b0 b1).toInt =
    ((256 * b0.toNat + b1.toNat) / 2 ^ shiftOf k : ℕ) - (offsetOf k : Int) := by
  rw [convertBytes, num_shr_toInt, shr_toNat, acc16_pair_toNat]

/-- R152, R159: `OFFN = OFF * DIV`, so over `DIV(kind)` the offset is `OFF(kind)`. -/
theorem convertBytes_div (k : Kind) (b0 b1 : Byte) : ((convertBytes k b0 b1).toInt : ℚ) / divOf k =
    ((256 * b0.toNat + b1.toNat) / 2 ^ shiftOf k : ℕ) / divOf k - offOf k := by
  have hdiv : (divOf k : ℚ) ≠ 0 := by cases k <;> simp [divOf, Config.rom]
  rw [convertBytes_toInt, Int.cast_sub, Int.cast_natCast, Int.cast_natCast, offsetOf, Nat.cast_mul, sub_div,
    mul_div_cancel_right₀ _ hdiv]

/-! ## The range and its values (R154) -/

/-- The shift leaves the bits above `SH(kind)`. -/
theorem shr_lt (k : Kind) (a : U16) : (shr k a).toNat < 2 ^ (16 - shiftOf k) := by
  have ha := a.isLt
  rw [shr_toNat]
  cases k
  all_goals
    simp only [shiftOf, Config.rom]
    omega

/-- The bytes are free, so the accumulator takes every value of 16 bits. -/
theorem exists_acc16_pair_eq (a : U16) : ∃ b0 b1, acc16 [b0, b1] = a := by
  refine ⟨BitVec.ofNat 8 (a.toNat / 256), BitVec.ofNat 8 a.toNat, BitVec.eq_of_toNat_eq ?_⟩
  have ha := a.isLt
  rw [acc16_pair_toNat, BitVec.toNat_ofNat, BitVec.toNat_ofNat]
  omega

/-- A shifted value comes from the accumulator that holds it above `SH(kind)` zeros. -/
theorem exists_shr_toNat_eq (k : Kind) {n : Nat} (h : n < 2 ^ (16 - shiftOf k)) : ∃ a, (shr k a).toNat = n := by
  refine ⟨BitVec.ofNat 16 (n * 2 ^ shiftOf k), ?_⟩
  rw [shr_toNat, BitVec.toNat_ofNat]
  cases k
  all_goals
    simp only [shiftOf, Config.rom] at h ⊢
    omega

/-- Nothing is clamped: every value from `-OFFN` up to the largest shifted value less `OFFN` is reached. -/
theorem exists_convertBytes_eq (k : Kind) (x : S16) (hlo : -(offsetOf k : Int) ≤ x.toInt)
    (hhi : x.toInt < 2 ^ (16 - shiftOf k) - offsetOf k) : ∃ b0 b1, convertBytes k b0 b1 = x := by
  obtain ⟨n, hn⟩ := Int.eq_ofNat_of_zero_le (show 0 ≤ x.toInt + offsetOf k by omega)
  obtain ⟨a, ha⟩ := exists_shr_toNat_eq k (n := n) (by zify; omega)
  obtain ⟨b0, b1, hab⟩ := exists_acc16_pair_eq a
  refine ⟨b0, b1, BitVec.eq_of_toInt_eq ?_⟩
  rw [convertBytes, num_shr_toInt, hab, ha]
  omega

/-! ## The bits shifted out (R157) -/

/-- The second byte counts only as far as the shift leaves it: `SH(kind)` is at most 8. -/
theorem convertBytes_eq_of_ushiftRight_eq {k : Kind} {b c : Byte} (b0 : Byte)
    (h : b >>> shiftOf k = c >>> shiftOf k) : convertBytes k b0 b = convertBytes k b0 c := by
  have hbc := congrArg BitVec.toNat h
  rw [BitVec.toNat_ushiftRight, BitVec.toNat_ushiftRight, Nat.shiftRight_eq_div_pow, Nat.shiftRight_eq_div_pow] at hbc
  apply BitVec.eq_of_toInt_eq
  rw [convertBytes_toInt, convertBytes_toInt]
  cases k
  all_goals
    simp only [shiftOf, Config.rom] at hbc ⊢
    omega

theorem convertBytes_or_low {k : Kind} {x : Byte} (b0 b : Byte) (hx : x.toNat < 2 ^ shiftOf k) :
    convertBytes k b0 (b ||| x) = convertBytes k b0 b := by
  have hgone : x >>> shiftOf k = 0#8 := by
    apply BitVec.eq_of_toNat_eq
    rw [BitVec.toNat_ushiftRight, Nat.shiftRight_eq_div_pow, Nat.div_eq_of_lt hx]
    rfl
  apply convertBytes_eq_of_ushiftRight_eq
  rw [BitVec.ushiftRight_or_distrib, hgone, BitVec.or_zero]

end Sys2Proof.Machine

section
open Sys2Proof Sys2Proof.Machine

/-- Settles O23: `convertBytes_div` at R103's constants of the two kinds. -/
theorem conversionFormulas : Obligations.ConversionFormulas := fun b0 b1 =>
  ⟨by simpa [shiftOf, divOf, offOf, Config.rom] using convertBytes_div .temp b0 b1,
    by simpa [shiftOf, divOf, offOf, Config.rom] using convertBytes_div .humi b0 b1⟩

/-- Settles O24: the shift bounds the value, the offset is exact, and both stages are onto their ranges. -/
theorem converterRanges : Obligations.ConverterRanges :=
  ⟨fun a => ⟨Nat.le_of_lt_succ (shr_lt .temp a), Nat.le_of_lt_succ (shr_lt .humi a)⟩, num_shr_toInt,
    fun _ _ => ⟨tempRange_num _, humiRange_num _⟩,
    fun x ⟨hlo, hhi⟩ => exists_convertBytes_eq .temp x hlo (hhi.trans_lt (by decide)),
    fun x ⟨hlo, hhi⟩ => exists_convertBytes_eq .humi x hlo (hhi.trans_lt (by decide))⟩

/-- Settles O25: whatever the rest of the byte holds, and so for the masked byte too. -/
theorem lowDataBitsAreIgnored : Obligations.LowDataBitsAreIgnored :=
  fun _ b0 _ _ hx => convertBytes_or_low b0 _ hx

end
end

section
/-! SUPPORT. The sampling and dispatch loop and the events (42_sdl_dispatch.md): each row of SDL at its pc, SDL's return
from a measurement, the timer's pulses, the text test and the messages sent, and the run of one sampling cycle. -/

namespace Sys2Proof.Machine

/-! ## The rows of SDL at their pcs (R174 to R182) -/

section
variable {s : State}

theorem exec_park (h : s.sdlPc = .park) (htick : s.tickPend = true) :
    exec .park s = .next { s with tickPend := false, sdlPc := .led1 } :=
  congrArg _ (if_pos ⟨h, htick⟩)

theorem exec_ledon1 (h : s.sdlPc = .led1) : exec .ledon1 s = .next { s with
    indicator := true, sdlPc := .callT, trace := s.trace ++ [.ind true] } :=
  congrArg _ (if_pos h)

theorem exec_callT (h : s.sdlPc = .callT) (hidle : s.spfPc = .idle) :
    exec .callT s = .next { (s.emit (.start .temp)).accept .temp with sdlPc := .waitT } :=
  congrArg _ (callStart_of_idle h hidle)

theorem exec_callH (h : s.sdlPc = .callH) (hidle : s.spfPc = .idle) :
    exec .callH s = .next { (s.emit (.start .humi)).accept .humi with sdlPc := .waitH } :=
  congrArg _ (callStart_of_idle h hidle)

theorem exec_diag (h : s.sdlPc = .diag) : exec .diag s = .next { s with
    sdlPc := .send, draw := s.draw + 1, trace := s.trace ++ [.diagSample s.timestamp s.tVal s.hVal] } :=
  congrArg _ (if_pos h)

theorem exec_send (h : s.sdlPc = .send) : exec .send s = .next
    { (s.storeMessage (formatMessage s.cfg s.tVal s.hVal)).emit
        (.radioSend Config.rom.gwAddr (formatMessage s.cfg s.tVal s.hVal)) with sdlPc := .led2 } :=
  congrArg _ (if_pos h)

theorem exec_ledon2 (h : s.sdlPc = .led2) : exec .ledon2 s = .next { s with
    indicator := true, sdlPc := .park, trace := s.trace ++ [.ind true] } :=
  congrArg _ (if_pos h)

end

/-! ## SDL's return from a measurement (R177, R179, R188; log 13) -/

/-- A `DONE` is of the kind measured, which is the one SDL waits for. -/
theorem waitDone_of_done {s t : State} {d : Done} (h : spfRule s = (t, some d)) :
    waitDone s.kind s.sdlPc s = settle (spfRule s) := by
  obtain ⟨-, -, hk, -⟩ := spfRule_some h
  rw [waitDone_eq, if_pos ⟨rfl, by simp [h, hk]⟩]

theorem waitDone_of_no_done {s : State} (k : Kind) (wait : SdlPc) (h : (spfRule s).2 = none) :
    waitDone k wait s = s := by
  rw [waitDone_eq, if_neg (by simp [h])]

/-- Where SPF's rule fails SDL's return is its row, and where it goes on SDL has no step. -/
theorem next_waitDone_of_rule {s : State} {r : State × Option Done} {c : Prop} [Decidable c] (hr : spfRule s = r)
    (hfail : c → ∃ e t, r = spfFail e t) (hon : ¬ c → r.2 = none) :
    Host.Outcome.next (waitDone s.kind s.sdlPc s) =
      (if c then .next (settle r) else .next s : Host.Outcome State Fault Refusal) := by
  split
  · next hc =>
    obtain ⟨e, t, rfl⟩ := hfail hc
    rw [waitDone_of_done hr, hr]
  · next hc => rw [waitDone_of_no_done _ _ (hr ▸ hon hc)]

/-- When the status read ends the measurement: a zero count, or busy at the poll limit. -/
abbrev State.pollFails (s : State) : Prop :=
  s.answer.n = 0 ∨ (s.answer.b0.getLsbD 0 = true ∧ ∃ limit, s.cfg.pollLimit = some limit ∧ limit ≤ s.pollCnt + 1)

theorem rdstRule_of_pollFails {s : State} (h : s.pollFails) : ∃ e t, rdstRule s = spfFail e t := by
  by_cases hn : s.answer.n = 0
  · exact ⟨_, _, rdstRule_of_zero hn⟩
  · obtain ⟨hbusy, limit, hl, hle⟩ := h.resolve_left hn
    exact ⟨_, _, rdstRule_of_expired hn hbusy (pollExpired_of_le hl hle)⟩

theorem rdstRule_of_not_pollFails {s : State} (h : ¬ s.pollFails) : (rdstRule s).2 = none := by
  obtain ⟨hn, hlimit⟩ := not_or.1 h
  cases hb : busy s.answer.b0 with
  | false => rw [rdstRule_of_clear hn hb]
  | true =>
    rw [rdstRule_of_busy hn hb (pollExpired_eq_false_iff.2 fun limit hl => ?_)]
    by_contra hle
    exact hlimit ⟨hb, limit, hl, by omega⟩

/-- The row of `WAIT`, for the kind measured. -/
theorem exec_wait {s : State} {i : Instr} (h : (i = .waitT ∧ s.sdlPc = .waitT ∧ s.kind = .temp) ∨
    (i = .waitH ∧ s.sdlPc = .waitH ∧ s.kind = .humi)) : exec i s = .next (waitDone s.kind s.sdlPc s) := by
  rcases h with ⟨rfl, hw, hk⟩ | ⟨rfl, hw, hk⟩
  all_goals
    rw [hw, hk]
    rfl

/-! ## Ticks and pulses (R184, R187) -/

theorem tickRemembered_iff {o : TickOverrun} {pc : SdlPc} :
    tickRemembered o pc = true ↔ o = .pend ∨ pc = .park := by
  cases o <;> simp [tickRemembered]

theorem raiseTick_eq (s : State) : s.raiseTick = { s with
    tickPend := if s.cfg.tickOverrun = .pend ∨ s.sdlPc = .park then true else s.tickPend
    trace := s.trace ++ [.tick] } := by
  simp only [← tickRemembered_iff, State.raiseTick]
  cases tickRemembered s.cfg.tickOverrun s.sdlPc <;> simp [State.emit]

section
variable {s : State} (harmed : s.armed = true)
include harmed

theorem exec_tick_of_armed : exec .tick s = .next s.raiseTick := congrArg _ (if_pos harmed)

theorem exec_tu_fires (htmr : s.tmr = 1) : exec .tu s = .next { s with
    tmr := 300
    tickPend := if s.cfg.tickOverrun = .pend ∨ s.sdlPc = .park then true else s.tickPend
    trace := s.trace ++ [.tu, .tick] } := by
  have hexec : exec .tu s = .next ({ s.emit .tu with tmr := BitVec.ofNat 9 Config.rom.period }).raiseTick :=
    congrArg _ ((if_pos harmed).trans (if_pos htmr))
  rw [hexec, raiseTick_eq]
  simp only [State.emit, Config.rom, List.append_assoc, List.singleton_append]
  rfl

theorem exec_tu_counts (htmr : s.tmr ≠ 1) : exec .tu s = .next { s with
    tmr := s.tmr - 1, trace := s.trace ++ [.tu] } :=
  congrArg _ ((if_pos harmed).trans (if_neg htmr))

end

theorem ticks_append (es es' : List Event) : ticks (es ++ es') = ticks es + ticks es' := by
  induction es with
  | nil => simp [ticks]
  | cons e es ih => cases e <;> simp [ticks, ih, Nat.add_right_comm]

/-- One pulse while armed: the counter wraps from 1 to 300 with a tick, or counts down without one. -/
theorem step_pulse {s : State} {rest : List Slot} (harmed : s.armed = true) (hlo : 1 ≤ s.tmr.toNat)
    (hplan : s.plan = .turn .tu :: rest) :
    ∃ u, step s = .next u ∧ u.armed = true ∧ u.plan = rest ∧
      ((s.tmr.toNat = 1 ∧ u.tmr.toNat = 300 ∧ ticks u.trace = ticks s.trace + 1) ∨
       (2 ≤ s.tmr.toNat ∧ u.tmr.toNat = s.tmr.toNat - 1 ∧ ticks u.trace = ticks s.trace)) := by
  by_cases htmr : s.tmr = 1
  · refine ⟨_, (step_tu hplan).trans (exec_tu_fires harmed htmr), harmed, rfl, .inl ⟨by simp [htmr], rfl, ?_⟩⟩
    simp [ticks_append, ticks]
  · refine ⟨_, (step_tu hplan).trans (exec_tu_counts harmed htmr), harmed, rfl, .inr ⟨?_, ?_, ?_⟩⟩
    · bv_omega
    · change (s.tmr - 1).toNat = _
      bv_omega
    · simp [ticks_append, ticks]

/-- Pulses from any count `m` within 1 to 300: the first tick at the `m`-th, then one every 300. -/
theorem run_pulses {n : Nat} {s : State} {rest : List Slot} (harmed : s.armed = true) (hlo : 1 ≤ s.tmr.toNat)
    (hhi : s.tmr.toNat ≤ 300) (hplan : s.plan = tuTurns n rest) :
    ∃ t, run n s = .next t ∧ ticks t.trace = ticks s.trace + (n + (300 - s.tmr.toNat)) / 300 ∧
      t.armed = true ∧ 1 ≤ t.tmr.toNat ∧ t.tmr.toNat ≤ 300 ∧ (t.tmr.toNat + n) % 300 = s.tmr.toNat % 300 := by
  induction n generalizing s with
  | zero => exact ⟨s, rfl, by omega, harmed, hlo, hhi, rfl⟩
  | succ n ih =>
    obtain ⟨u, hstep, hu, huplan, hcount⟩ := step_pulse harmed hlo hplan
    obtain ⟨t, hrun, hticks, ht, htlo, hthi, hmod⟩ := ih hu (by omega) (by omega) huplan
    exact ⟨t, (run_succ hstep).trans hrun, by omega, ht, htlo, hthi, by omega⟩

/-! ## The line of a packet (R186, R235) -/

theorem receiveLine_of_text {p : Params} {pkt : Packet} (ts : Nat) (ha : utf8Valid p.utf8Valid pkt.address = true)
    (hp : utf8Valid p.utf8Valid pkt.payload = true) : receiveLine p ts pkt =
      .diagRx ts pkt.address pkt.snr pkt.packetRssi pkt.ambientRssi pkt.payload.length pkt.payload :=
  if_pos (by rw [ha, hp]; rfl)

theorem receiveLine_of_no_text {p : Params} {pkt : Packet} (ts : Nat) (h : utf8Valid p.utf8Valid pkt.address = false ∨
    utf8Valid p.utf8Valid pkt.payload = false) : receiveLine p ts pkt = .diagDecodeError :=
  if_neg (by rcases h with h | h <;> simp [h])

theorem exec_rxdata (s : State) : exec .rxdata s = .next { s with
    draw := s.draw + 1, trace := s.trace ++ [.rxdata s.inbound, receiveLine s.cfg s.timestamp s.inbound] } := by
  simp [exec, execRxdata, State.emit, State.afterTimestamp]

/-! ## The text test (R186; log 6) -/

theorem toNat_lt_of_isCont {b : Byte} (h : isCont b = true) : b.toNat < 0xC0 := by
  simp only [isCont, Bool.and_eq_true, decide_eq_true_eq] at h
  omega

/-- The narrower ranges after `E0` and `ED` are of continuation bytes too. -/
theorem isCont_of_second3 {b0 b1 : Byte} (h : second3 b0 b1 = true) : isCont b1 = true := by
  unfold second3 at h
  split_ifs at h
  all_goals
    simp only [isCont, Bool.and_eq_true, decide_eq_true_eq] at h ⊢
    omega

/-- The narrower ranges after `F0` and `F4` are of continuation bytes too. -/
theorem isCont_of_second4 {b0 b1 : Byte} (h : second4 b0 b1 = true) : isCont b1 = true := by
  unfold second4 at h
  split_ifs at h
  all_goals
    simp only [isCont, Bool.and_eq_true, decide_eq_true_eq] at h ⊢
    omega

theorem utf8WellFormed_of_ascii {bs : Bytes} (h : ∀ b ∈ bs, b.toNat < 0x80) : utf8WellFormed bs = true := by
  induction bs with
  | nil => rfl
  | cons b bs ih =>
    obtain ⟨hb, hbs⟩ := List.forall_mem_cons.1 h
    rw [utf8WellFormed.eq_def]
    simpa only [if_pos hb] using ih hbs

/-- Every byte of a text leads a form or continues one, and no form begins with `C0`, `C1` or `F5` to `FF`. -/
theorem bytes_of_utf8WellFormed {bs : Bytes} (h : utf8WellFormed bs = true) :
    ∀ b ∈ bs, b.toNat < 0xC0 ∨ (0xC2 ≤ b.toNat ∧ b.toNat < 0xF5) := by
  fun_induction utf8WellFormed bs
  case case1 => simp
  case case2 b0 rest hb0 ih => exact List.forall_mem_cons.2 ⟨.inl (by omega), ih h⟩
  case case4 b0 hlo hlead hhi b1 rest ih =>
    obtain ⟨h1, hrest⟩ := Bool.and_eq_true_iff.1 h
    simp only [List.forall_mem_cons]
    exact ⟨.inr (by omega), .inl (toNat_lt_of_isCont h1), ih hrest⟩
  case case6 b0 hlo hlead hlo' hhi b1 b2 rest ih =>
    simp only [Bool.and_eq_true] at h
    obtain ⟨⟨h1, h2⟩, hrest⟩ := h
    simp only [List.forall_mem_cons]
    exact ⟨.inr (by omega), .inl (toNat_lt_of_isCont (isCont_of_second3 h1)), .inl (toNat_lt_of_isCont h2), ih hrest⟩
  case case8 b0 hlo hlead hlo' hlo'' hhi b1 b2 b3 rest ih =>
    simp only [Bool.and_eq_true] at h
    obtain ⟨⟨⟨h1, h2⟩, h3⟩, hrest⟩ := h
    simp only [List.forall_mem_cons]
    exact ⟨.inr (by omega), .inl (toNat_lt_of_isCont (isCont_of_second4 h1)), .inl (toNat_lt_of_isCont h2),
      .inl (toNat_lt_of_isCont h3), ih hrest⟩
  all_goals cases h

/-! ## The messages sent (R181, R216) -/

/-- What an operation adds to the trace holds no `RADIO_SEND` but `SEND`'s, whose message is of latched readings. -/
theorem Effect.sendEvents {s t : State} (h : Effect s t) (hr : RangeInv s) :
    ∃ es, t.trace = s.trace ++ es ∧ ∀ e ∈ es, sendEventOk e := by
  cases h with
  | spf =>
    obtain ⟨es, htrace, hes⟩ := settle_trace s
    refine ⟨_, htrace.trans (List.append_assoc _ _ _), List.forall_mem_append.2 ⟨?_, ?_⟩⟩
    · rcases hes with rfl | rfl | ⟨e, rfl, w, rlen, n, r, rfl, -⟩ <;> simp [sendEventOk]
    · cases (spfRule s).2 <;> simp [sendEventOk]
  | send h =>
    obtain ⟨hT, hH⟩ := hr
    refine ⟨_, rfl, ?_⟩
    rw [List.forall_mem_singleton]
    exact ⟨rfl, formatMessage_length (hT (by simp [h])) (hH (by simp [h]))⟩
  | rxdata =>
    refine ⟨_, List.append_assoc _ _ _, ?_⟩
    rcases receiveLine_cases s.cfg s.timestamp s.inbound with hl | hl <;> simp [hl, sendEventOk]
  | tuFires | txdone => exact ⟨_, List.append_assoc _ _ _, by simp [sendEventOk]⟩
  | unchanged | bprobe | arm | park | acc | shroff => exact ⟨[], (List.append_nil _).symm, by simp⟩
  | _ => exact ⟨_, rfl, by simp [sendEventOk]⟩

/-! ## A sampling cycle (R189) -/

section
variable {s : State} {rest : List Slot}

/-- SDL's turn at `pc` runs the row of `pc`. -/
theorem step_sdl_row {pc : SdlPc} {t : State} (hpc : s.sdlPc = pc) (hplan : s.plan = .turn .sdl :: rest)
    (h : exec (SdlPc.operation pc) { s with plan := rest } = .next t) : step s = .next t := by
  subst hpc
  exact (step_sdl hplan).trans h

/-- From a pending tick to the accepted `START` of the temperature. -/
theorem run_parkToCycle (hpc : s.sdlPc = .park) (hidle : s.spfPc = .idle) (htick : s.tickPend = true)
    (hplan : s.plan = sdlTurns 3 rest) : run 3 s = .next { s with
      tickPend := false, indicator := true, kind := .temp, err := .eNone, pollCnt := 0, busHeld := true
      spfPc := .cmd, sdlPc := .waitT, plan := rest, trace := s.trace ++ [.ind true, .start .temp] } := by
  refine Eq.trans (run_succ (step_sdl_row hpc hplan (exec_park hpc htick))) ?_
  refine Eq.trans (run_succ (step_sdl_row rfl rfl (exec_ledon1 rfl))) ?_
  refine Eq.trans (run_succ (step_sdl_row rfl rfl (exec_callT rfl hidle))) ?_
  simp [run_zero, State.emit, State.accept]

/-- The call of the humidity cycle, between the two. -/
theorem run_callH (hpc : s.sdlPc = .callH) (hidle : s.spfPc = .idle) (hplan : s.plan = sdlTurns 1 rest) :
    run 1 s = .next { s with
      kind := .humi, err := .eNone, pollCnt := 0, busHeld := true, spfPc := .cmd, sdlPc := .waitH, plan := rest
      trace := s.trace ++ [.start .humi] } :=
  run_succ (step_sdl_row hpc hplan (exec_callH hpc hidle))

/-- The end of the temperature cycle: the two bytes read are converted and latched. -/
theorem settle_convRule_atConv_temp (c : BusAnswer) (as : List BusAnswer) (d : BusAnswer) (more : List BusAnswer)
    (hw : s.sdlPc = .waitT) (hk : s.kind = .temp) :
    settle (convRule (s.atConv c as d more rest)) = { s.atConv c as d more rest with
      raw := shr .temp (acc16 [d.b0, d.b1]), val := convertBytes .temp d.b0 d.b1, busHeld := false, spfPc := .idle
      tVal := convertBytes .temp d.b0 d.b1, sdlPc := .callH
      trace := s.trace ++ cycleEvents s.cfg .temp c as d ++ [.done (.ok .temp (convertBytes .temp d.b0 d.b1))] } := by
  rw [settle_convRule_temp (s := s.atConv c as d more rest) hw hk]
  simp [State.atConv, hk, convertBytes, acc16_pair]

/-- The end of the humidity cycle: the two bytes read are converted and latched. -/
theorem settle_convRule_atConv_humi (c : BusAnswer) (as : List BusAnswer) (d : BusAnswer) (more : List BusAnswer)
    (hw : s.sdlPc = .waitH) (hk : s.kind = .humi) :
    settle (convRule (s.atConv c as d more rest)) = { s.atConv c as d more rest with
      raw := shr .humi (acc16 [d.b0, d.b1]), val := convertBytes .humi d.b0 d.b1, busHeld := false, spfPc := .idle
      hVal := convertBytes .humi d.b0 d.b1, sdlPc := .diag
      trace := s.trace ++ cycleEvents s.cfg .humi c as d ++ [.done (.ok .humi (convertBytes .humi d.b0 d.b1))] } := by
  rw [settle_convRule_humi (s := s.atConv c as d more rest) hw hk]
  simp [State.atConv, hk, convertBytes, acc16_pair]

/-- From the latched readings to the next park. -/
theorem run_diagToPark (hpc : s.sdlPc = .diag) (hplan : s.plan = sdlTurns 3 rest) :
    run 3 s = .next { s.storeMessage (formatMessage s.cfg s.tVal s.hVal) with
      indicator := true, sdlPc := .park, plan := rest, draw := s.draw + 1
      trace := s.trace ++ [.diagSample s.timestamp s.tVal s.hVal,
        .radioSend Config.rom.gwAddr (formatMessage s.cfg s.tVal s.hVal), .ind true] } := by
  refine Eq.trans (run_succ (step_sdl_row hpc hplan (exec_diag hpc))) ?_
  refine Eq.trans (run_succ (step_sdl_row rfl rfl (exec_send rfl))) ?_
  refine Eq.trans (run_succ (step_sdl_row rfl rfl (exec_ledon2 rfl))) ?_
  simp [run_zero, State.emit, State.storeMessage, State.timestamp]

end

end Sys2Proof.Machine

section
open Sys2Proof Sys2Proof.Machine

/-- Settles O48: the host's reset empties the trace, and an operation sends only the message of latched readings. -/
theorem everySentMessageIsBounded : Obligations.EverySentMessageIsBounded := by
  intro s t hr hs h
  refine (step_keeps (P := fun u => RangeInv u ∧ ∀ e ∈ u.trace, sendEventOk e) (fun _ hu => hu) (fun _ _ => ?_)
    (fun u v hu huv => ?_) ⟨hr, hs⟩ h).2
  · simp [State.hostReset, State.reset, RangeInv]
  · obtain ⟨hrange, hsent⟩ := hu
    obtain ⟨es, htrace, hes⟩ := huv.sendEvents hrange
    exact ⟨hrange.effect huv, htrace ▸ List.forall_mem_append.2 ⟨hsent, hes⟩⟩

/-- Settles O58: `run_pulses`, by induction on the pulses, from `ARM`'s count of 15. -/
theorem timerFiresAfterDelayThenEveryPeriod : Obligations.TimerFiresAfterDelayThenEveryPeriod := by
  intro s n rest harmed htmr hplan
  have hcount : s.tmr.toNat = 15 := by rw [htmr]; rfl
  simpa [hcount] using run_pulses harmed (by omega) (by omega) hplan

/-- Settles O19: where SPF's rule emits a `DONE` the two rows are the same step. -/
theorem waitIsTheStepThatEndsTheMeasurement : Obligations.WaitIsTheStepThatEndsTheMeasurement := by
  intro s i hi
  rw [exec_wait hi]
  refine ⟨fun hpc => ?_, fun hpc => ?_, fun hpc => ?_, fun hpc => ?_, fun hpc => ?_⟩
  · rw [exec_conv hpc, waitDone_of_conv hpc rfl]
  · rw [exec_wrcmd hpc]
    exact next_waitDone_of_rule (by simp only [spfRule, hpc]) (fun hn => ⟨_, _, wrcmdRule_of_zero hn⟩)
      (fun hn => by rw [wrcmdRule_of_answered hn])
  · rw [exec_rddt hpc]
    exact next_waitDone_of_rule (by simp only [spfRule, hpc]) (fun hn => ⟨_, _, rddtRule_of_zero hn⟩)
      (fun hn => by rw [rddtRule_of_answered hn])
  · rw [exec_rdst hpc]
    exact next_waitDone_of_rule (by simp only [spfRule, hpc]) rdstRule_of_pollFails rdstRule_of_not_pollFails
  · rw [waitDone_of_no_done]
    rcases hpc with hpc | hpc | hpc <;> simp only [spfRule, hpc]

/-- Settles O34: bytes below `80` are forms of their own, and the others cannot occur in a text. -/
theorem defaultTextTest : Obligations.DefaultTextTest := by
  refine ⟨fun _ => utf8WellFormed_of_ascii, fun bs b hb hbad => ?_⟩
  rw [← Bool.not_eq_true]
  intro htext
  have hrange := bytes_of_utf8WellFormed htext b hb
  rcases hbad with rfl | rfl | hge
  · exact absurd hrange (by decide)
  · exact absurd hrange (by decide)
  · omega

/-- Settles O59: SDL's rows up to the call, the two cycles with the call between them, and SDL's rows down to the
park. -/
theorem samplingCycleEndToEnd : Obligations.SamplingCycleEndToEnd := by
  intro s c d c' d' z z' as as' more rest hpc hidle htick hc hbusy hz hd hlimit hc' hbusy' hz' hd' hlimit' hans hplan
  have hans' : s.answers = c :: as ++ z :: d :: (c' :: as' ++ z' :: d' :: more) := by simpa using hans
  have hturns : as.length + as'.length + 15 = 3 + (as.length + 4 + (1 + (as'.length + 4 + 3))) := by omega
  rw [hturns]
  refine ⟨s.timestamp, _,
    Eq.trans (run_add (run_parkToCycle hpc hidle htick hplan)) <|
    Eq.trans (run_add (Eq.trans (run_cycle rfl rfl hc hbusy hz hd hlimit hans' rfl)
      (congrArg _ (settle_convRule_atConv_temp _ _ _ _ rfl rfl)))) <|
    Eq.trans (run_add (run_callH rfl rfl rfl)) <|
    Eq.trans (run_add (Eq.trans (run_cycle rfl rfl hc' hbusy' hz' hd' hlimit' rfl rfl)
      (congrArg _ (settle_convRule_atConv_humi _ _ _ _ rfl rfl)))) <|
    run_diagToPark rfl rfl, rfl, rfl, rfl, rfl, rfl, rfl, rfl, rfl, rfl, rfl, ?_⟩
  simp [State.atConv, State.afterReads, State.timestamp, Config.rom]

/-- Settles O26: each row at its pc is its rule. -/
theorem bootAndParkResults : Obligations.BootAndParkResults := fun _ =>
  ⟨fun hpc hidle => congrArg _ (if_pos ⟨hpc, hidle⟩), fun hpc => congrArg _ (if_pos hpc),
    fun hpc => congrArg _ (if_pos hpc), fun hpc => congrArg _ (if_pos hpc), exec_park⟩

/-- Settles O27: a write of the indicator does not look at what it holds. -/
theorem indicatorResults : Obligations.IndicatorResults := by
  refine fun s => ⟨exec_ledon1, exec_ledon2, ?_⟩
  simp [exec, execTxdone, State.setIndicator, State.emit]

/-- Settles O28: the timestamp is the value drawn. -/
theorem diagResult : Obligations.DiagResult :=
  fun s hpc => ⟨s.timestamp, exec_diag hpc⟩

/-- Settles O30: `HALT` is the row of `L_FATAL`, and its rule is the identity. -/
theorem haltResult : Obligations.HaltResult :=
  fun _ => ⟨rfl, rfl⟩

/-- Settles O32: the pulse's three cases; a tick is remembered as `TICK_OVERRUN` says (`raiseTick_eq`). -/
theorem timerResults : Obligations.TimerResults := by
  intro s
  refine ⟨fun hunarmed => ?_, exec_tu_fires, fun harmed htwo => ⟨s.tmr - 1, by bv_omega, ?_⟩, fun harmed => ?_⟩
  · exact congrArg _ (if_neg (by simp [hunarmed]))
  · exact exec_tu_counts harmed (by rintro h; simp [h] at htwo)
  · rw [exec_tick_of_armed harmed, raiseTick_eq]

/-- Settles O33: whatever the line is, the row draws a timestamp and records. -/
theorem rxdataResult : Obligations.RxdataResult := by
  intro s
  rw [exec_rxdata]
  exact ⟨fun ha hp => ⟨s.timestamp, by rw [receiveLine_of_text _ ha hp]⟩,
    fun h => by rw [receiveLine_of_no_text _ h]⟩

end
end

section
/-! SUPPORT. The formatter (43_format.md): rounding by the place of the remainder, the sign, and the text of a number as
the library's list of its decimal digits. -/

namespace Sys2Proof.Machine

/-! ## Rounding (R213) -/

section
variable {a : Nat} (tie : FmtTie)

theorem roundQ_below (h : a % 16 < 8) : roundQ tie a = a / 16 := by
  simp only [roundQ, if_neg h.not_gt, if_pos h]

theorem roundQ_above (h : 8 < a % 16) : roundQ tie a = a / 16 + 1 :=
  if_pos h

theorem roundQ_halfAway_tie (h : a % 16 = 8) : roundQ .halfAway a = a / 16 + 1 := by
  simp [roundQ, h]

theorem roundQ_halfEven_tie (h : a % 16 = 8) : roundQ .halfEven a = a / 16 + a / 16 % 2 := by
  simp [roundQ, h]

end

/-- The other half of `roundQ_le`: the rounded number is not more than half a unit too small. -/
theorem le_roundQ (tie : FmtTie) (a : Nat) : a ≤ 16 * roundQ tie a + 8 := by
  rcases lt_trichotomy (a % 16) 8 with h | h | h
  · rw [roundQ_below tie h]; omega
  · cases tie
    · rw [roundQ_halfAway_tie h]; omega
    · rw [roundQ_halfEven_tie h]; omega
  · rw [roundQ_above tie h]; omega

/-! ## The sign (R214) -/

theorem signOf_of_neg_of_pos {x : Int} {q : Nat} (nz : FmtNegzero) (hx : x < 0) (hq : 0 < q) :
    signOf nz x q = [0x2D] := by
  simp [signOf, hx.not_ge, hq]

theorem signOf_plain_zero (x : Int) : signOf .plain x 0 = [] :=
  ite_self _

theorem signOf_signed_zero {x : Int} (hx : x < 0) : signOf .signed x 0 = [0x2D] := by
  simp [signOf, hx.not_ge]

/-- A sign is at most one byte (`signOf_length_le`), and that byte is the minus. -/
theorem signOf_eq_nil_or_minus (nz : FmtNegzero) (x : Int) (q : Nat) :
    signOf nz x q = [] ∨ signOf nz x q = [0x2D] := by
  rcases lt_or_ge x 0 with hx | hx
  · rcases q.eq_zero_or_pos with rfl | hq
    · cases nz
      · exact .inl (signOf_plain_zero x)
      · exact .inr (signOf_signed_zero hx)
    · exact .inr (signOf_of_neg_of_pos nz hx hq)
  · exact .inl (signOf_of_nonneg nz q hx)

/-! ## The text of a number (R215) -/

theorem digit_toNat {d : Nat} (h : d < 10) : (digit d).toNat = 0x30 + d := by
  simp only [digit, BitVec.toNat_ofNat]
  omega

theorem digit_ne_zero {d : Nat} (h : d < 10) (h0 : d ≠ 0) : digit d ≠ 0x30 := by
  have hval := digit_toNat h
  intro heq
  rw [heq, show (0x30 : Byte).toNat = 0x30 from rfl] at hval
  omega

/-- With fuel enough, a positive number's digits are the library's, which have the least significant first. -/
theorem decDigits_eq_digits_append {fuel n : Nat} (tail : Bytes) (hpos : 0 < n) (h : n < fuel) :
    decDigits fuel n tail = (Nat.digits 10 n).reverse.map digit ++ tail := by
  induction fuel generalizing n tail with
  | zero => omega
  | succ fuel ih =>
    unfold decDigits
    split
    · next hlt => simp [Nat.digits_of_lt 10 n hpos.ne' hlt]
    · next hge =>
      rw [ih _ (by omega) (by omega), Nat.digits_eq_cons_digits_div (by omega) hpos.ne']
      simp

theorem dec_eq_map_digits {n : Nat} (hpos : 0 < n) : dec n = (Nat.digits 10 n).reverse.map digit := by
  simp [dec, decDigits_eq_digits_append _ hpos]

theorem exists_digit_of_mem_dec {n : Nat} {b : Byte} (hb : b ∈ dec n) : ∃ d < 10, digit d = b := by
  rcases n.eq_zero_or_pos with rfl | hpos
  · exact ⟨0, by decide, (List.mem_singleton.mp hb).symm⟩
  · rw [dec_eq_map_digits hpos] at hb
    obtain ⟨d, hd, rfl⟩ := List.mem_map.mp hb
    exact ⟨d, Nat.digits_lt_base (by decide) (List.mem_reverse.mp hd), rfl⟩

/-- Read most significant first, the bytes of a list of digits give the number of these digits. -/
theorem foldl_map_digit {ds : List Nat} (h : ∀ d ∈ ds, d < 10) :
    (ds.reverse.map digit).foldl (fun v b => 10 * v + (b.toNat - 0x30)) 0 = Nat.ofDigits 10 ds := by
  induction ds with
  | nil => rfl
  | cons d ds ih =>
    obtain ⟨hd, hds⟩ := List.forall_mem_cons.mp h
    rw [List.reverse_cons, List.map_append, List.foldl_append, ih hds, Nat.ofDigits_cons]
    simp [digit_toNat hd, Nat.add_comm]

theorem dec_foldl (n : Nat) : (dec n).foldl (fun v b => 10 * v + (b.toNat - 0x30)) 0 = n := by
  rcases n.eq_zero_or_pos with rfl | hpos
  · rfl
  · rw [dec_eq_map_digits hpos, foldl_map_digit fun _ => Nat.digits_lt_base (by decide), Nat.ofDigits_digits]

/-- The first byte is the most significant digit, which the library knows not to be zero. -/
theorem dec_head_ne_zero {n : Nat} (hpos : 0 < n) : ∃ b bs, dec n = b :: bs ∧ b ≠ 0x30 := by
  have hne : Nat.digits 10 n ≠ [] := Nat.digits_ne_nil_iff_ne_zero.mpr hpos.ne'
  have hlead := Nat.getLast_digit_ne_zero 10 hpos.ne'
  have hlt : (Nat.digits 10 n).getLast hne < 10 := Nat.digits_lt_base (by decide) (List.getLast_mem hne)
  refine ⟨digit ((Nat.digits 10 n).getLast hne), (Nat.digits 10 n).dropLast.reverse.map digit, ?_,
    digit_ne_zero hlt hlead⟩
  rw [dec_eq_map_digits hpos, ← List.map_cons, ← List.reverse_concat, List.dropLast_append_getLast]

theorem tenths_eq (q : Nat) : tenths q = dec (q / 10) ++ [0x2E] ++ [digit (q % 10)] := by
  simp [tenths]

end Sys2Proof.Machine

section
open Sys2Proof Sys2Proof.Machine

/-- Settles O35: by the place of the remainder; at a tie half even adds the quotient's parity to it. -/
theorem roundingAndSign : Obligations.RoundingAndSign := by
  refine ⟨fun tie a => ⟨roundQ_below tie, roundQ_above tie, fun h => ?_, roundQ_le tie a, le_roundQ tie a⟩,
    fun nz x q => ⟨signOf_of_nonneg nz q, signOf_of_neg_of_pos nz, fun hx =>
      ⟨signOf_plain_zero x, signOf_signed_zero hx⟩⟩⟩
  refine ⟨roundQ_halfAway_tie h, roundQ_halfEven_tie h, ?_⟩
  rw [roundQ_halfEven_tie h]
  omega

/-- Settles O36: the bytes are those of the library's decimal digits. -/
theorem decIsTheDecimalNumeral : Obligations.DecIsTheDecimalNumeral := by
  refine ⟨fun _ => digit_toNat, rfl, fun n => ⟨fun b hb => ?_, dec_foldl n, dec_head_ne_zero, tenths_eq n⟩⟩
  obtain ⟨d, hd, rfl⟩ := exists_digit_of_mem_dec hb
  rw [digit_toNat hd]
  omega

/-- Settles O37: the parts are the formatter's own, and the rounding bounds keep both integer parts below 1000. -/
theorem messageShape : Obligations.MessageShape := by
  intro p t h
  have htle := roundQ_le p.fmtTie (t.toInt.natAbs * 5)
  have htge := le_roundQ p.fmtTie (t.toInt.natAbs * 5)
  have hhle := roundQ_le p.fmtTie h.toInt.natAbs
  have hq := Nat.div_add_mod (roundQ p.fmtTie (t.toInt.natAbs * 5)) 10
  refine ⟨_, _, roundQ p.fmtTie (t.toInt.natAbs * 5) / 10, _, roundQ p.fmtTie (t.toInt.natAbs * 5) % 10,
    ?_, signOf_eq_nil_or_minus _ _ _, signOf_eq_nil_or_minus _ _ _, Nat.mod_lt _ (by decide), hq, rfl, rfl, rfl,
    ?_, ⟨hhle, le_roundQ p.fmtTie _⟩, signOf_of_nonneg _ _, signOf_of_neg_of_pos _, signOf_of_nonneg _ _,
    signOf_of_neg_of_pos _, ?_, ?_⟩
  · simp [formatMessage, fmtT, fmtH, tenths_eq, hq]
  · rw [hq]
    exact ⟨htle, htge⟩
  · rintro ⟨hlo, hhi⟩
    omega
  · rintro ⟨hlo, hhi⟩
    omega

/-- Settles O38: the length lemmas of the two parts and of the whole. -/
theorem messageLengths : Obligations.MessageLengths :=
  fun _ _ _ ht hh => ⟨fmtT_length ht, fmtH_length hh, formatMessage_length ht hh⟩

/-- Settles O39: the rounding bounds hold of any magnitude, so of ten times the humidity's. -/
theorem diagnosticRendering : Obligations.DiagnosticRendering := fun p h =>
  ⟨_, rfl, by simp only [fmtH1, tenths_eq, List.append_assoc], roundQ_le p.fmtTie _, le_roundQ p.fmtTie _⟩

end
end

section
/-! SUPPORT. The exceptional state (60_exceptions.md R242, R244): without an armed timer an event only notifies, and in
`L_FATAL` a turn of a sequencer only takes its slot. -/

namespace Sys2Proof.Machine

/-! ## What a notification may touch (R244) -/

/-- `t` is `s` but for the draw counter, the indicator and events that may follow the fatal entry. -/
def OnlyNotified (s t : State) : Prop :=
  ∃ draw level es, t = { s with draw := draw, indicator := level, trace := s.trace ++ es } ∧ ∀ e ∈ es, afterFatalOk e

theorem OnlyNotified.refl (s : State) : OnlyNotified s s :=
  ⟨s.draw, s.indicator, [], by rw [List.append_nil], by simp⟩

/-- Without an armed timer no pulse counts and no tick is raised, so every event only notifies. -/
theorem exec_evt_onlyNotified {i : Instr} {s t : State} (hi : i.format = .evt) (harmed : s.armed = false)
    (h : exec i s = .next t) : OnlyNotified s t := by
  cases i with
  | tu =>
    have hrow : exec .tu s = .next (s.emit .tu) := congrArg _ (if_neg (by simp [harmed]))
    cases hrow.symm.trans h
    exact ⟨s.draw, s.indicator, [.tu], rfl, by simp [afterFatalOk]⟩
  | tick =>
    have hrow : exec .tick s = .next s := congrArg _ (if_neg (by simp [harmed]))
    cases hrow.symm.trans h
    exact .refl s
  | txdone =>
    cases h
    exact ⟨s.draw, false, [.txdone, .ind false], by simp [State.setIndicator, State.emit],
      by simp [afterFatalOk]⟩
  | rxdata =>
    cases (exec_rxdata s).symm.trans h
    refine ⟨s.draw + 1, s.indicator, _, rfl, ?_⟩
    rcases receiveLine_cases s.cfg s.timestamp s.inbound with hl | hl <;> simp [hl, afterFatalOk]
  | _ => cases hi

/-! ## A turn in the fatal state (R183, R242) -/

/-- In `L_FATAL` SPF is idle, the timer unarmed and SDL's row `HALT`, so past the slot a turn only notifies. -/
theorem step_of_fatal_onlyNotified {s t : State} {τ : Turn} (hc : CouplingInv s) (hpc : s.sdlPc = .fatal)
    (harmed : s.armed = false) (hturn : s.nextSlot = .turn τ) (h : step s = .next t) :
    OnlyNotified s.afterSlot t := by
  by_cases hspf : τ = .spf
  · subst hspf
    have hidle : s.spfPc = .idle := hc.idle (by simp [hpc]) (by simp [hpc]) (by simp [hpc])
    cases (step_of_idleSpfTurn hturn hidle).symm.trans h
    exact .refl _
  by_cases hsdl : τ = .sdl
  · subst hsdl
    have hhalt : exec (SdlPc.operation s.sdlPc) s.afterSlot = .next s.afterSlot := by rw [hpc]; rfl
    cases ((step_of_sdlTurn hturn).trans hhalt).symm.trans h
    exact .refl _
  · obtain ⟨i, hi, hstep⟩ := step_of_eventTurn hturn hspf hsdl
    exact exec_evt_onlyNotified hi (by simpa using harmed) (hstep.symm.trans h)

end Sys2Proof.Machine

section
open Sys2Proof Sys2Proof.Machine

/-- Settles O49: the timer is unarmed outside the running phases, so past its slot the turn only notifies. -/
theorem fatalStateIsAbsorbing : Obligations.FatalStateIsAbsorbing := by
  rintro s t τ hc ⟨hrun, -⟩ hpc hturn h
  have harmed : s.armed = false := by simpa [hpc] using hrun
  obtain ⟨draw, level, es, rfl, hes⟩ := step_of_fatal_onlyNotified hc hpc harmed hturn h
  exact ⟨hpc, harmed, rfl, rfl, rfl, rfl, es, rfl, hes⟩

end
end

section
/-! SUPPORT. Boot and the indicator race (70_reset_and_hazards.md): the runs of SPF's probe and of SDL's boot steps, and
the transmit-complete on either side of the indicator's second write. -/

namespace Sys2Proof.Machine

section
variable {s : State} {rest : List Slot}

/-! ## The rows of boot at their pcs (R170 to R173) -/

theorem exec_bprobe (h : s.sdlPc = .bootProbe) (hidle : s.spfPc = .idle) :
    exec .bprobe s = .next { s with sdlPc := .bootRinit } :=
  congrArg _ (if_pos ⟨h, hidle⟩)

theorem exec_rinit (h : s.sdlPc = .bootRinit) : exec .rinit s = .next { s with
    sdlPc := .bootRrecv
    trace := s.trace ++ [.radioInit Config.rom.radioFreq s.cfg.paBoost s.cfg.rxCrc] } :=
  congrArg _ (if_pos h)

theorem exec_rrecv (h : s.sdlPc = .bootRrecv) : exec .rrecv s = .next { s with
    sdlPc := .bootArm, trace := s.trace ++ [.radioReceive Config.rom.ownAddr] } :=
  congrArg _ (if_pos h)

theorem exec_arm (h : s.sdlPc = .bootArm) : exec .arm s = .next { s with
    tmr := BitVec.ofNat 9 Config.rom.delay, armed := true, sdlPc := .park } :=
  congrArg _ (if_pos h)

/-! ## Boot (R272) -/

theorem step_prbTgl (hpc : s.spfPc = .prbTgl) (hplan : s.plan = .turn .spf :: rest) : step s = .next { s with
    spfPc := .prbId, plan := rest, trace := s.trace ++ [.lineToggle] } :=
  step_spf_rule hplan (r := (tglRule { s with plan := rest }, none)) (by simp only [spfRule, hpc])

theorem rdidRule_of_cons {a : BusAnswer} {more : List BusAnswer} (hans : s.answers = a :: more) :
    rdidRule s = { s with
      spfPc := .idle, busHeld := false, answers := more
      trace := s.trace ++ [.bus 0x40 [s.cfg.idReg] 1 a.n [a.b0]] } :=
  congrArg (fun t : State => { t with busHeld := false, spfPc := .idle })
    (State.afterBus_of_cons hans [s.cfg.idReg] 1)

theorem step_prbId {a : BusAnswer} {more : List BusAnswer} (hpc : s.spfPc = .prbId)
    (hplan : s.plan = .turn .spf :: rest) (hans : s.answers = a :: more) : step s = .next { s with
      spfPc := .idle, busHeld := false, answers := more, plan := rest
      trace := s.trace ++ [.bus 0x40 [s.cfg.idReg] 1 a.n [a.b0]] } := by
  have hr : spfRule { s with plan := rest } = (rdidRule { s with plan := rest }, none) := by simp only [spfRule, hpc]
  exact (step_spf_rule hplan hr).trans
    (congrArg Host.Outcome.next (rdidRule_of_cons (s := { s with plan := rest }) hans))

/-- SPF's probe holds for every answer, and leaves SPF idle. -/
theorem run_probe {a : BusAnswer} {more : List BusAnswer} (hpc : s.spfPc = .prbTgl)
    (hans : s.answers = a :: more) (hplan : s.plan = spfTurns 2 rest) : run 2 s = .next { s with
      spfPc := .idle, busHeld := false, answers := more, plan := rest
      trace := s.trace ++ [.lineToggle, .bus 0x40 [s.cfg.idReg] 1 a.n [a.b0]] } := by
  refine Eq.trans (run_succ (step_prbTgl hpc hplan)) ?_
  refine Eq.trans (run_succ (step_prbId rfl rfl hans)) ?_
  simp [run_zero]

/-- Once SPF is idle, SDL's boot rows follow each other to the park. -/
theorem run_bootToPark (hpc : s.sdlPc = .bootProbe) (hidle : s.spfPc = .idle) (hplan : s.plan = sdlTurns 4 rest) :
    run 4 s = .next { s with
      sdlPc := .park, armed := true, tmr := BitVec.ofNat 9 Config.rom.delay, plan := rest
      trace := s.trace ++ [.radioInit Config.rom.radioFreq s.cfg.paBoost s.cfg.rxCrc,
        .radioReceive Config.rom.ownAddr] } := by
  refine Eq.trans (run_succ (step_sdl_row hpc hplan (exec_bprobe hpc hidle))) ?_
  refine Eq.trans (run_succ (step_sdl_row rfl rfl (exec_rinit rfl))) ?_
  refine Eq.trans (run_succ (step_sdl_row rfl rfl (exec_rrecv rfl))) ?_
  refine Eq.trans (run_succ (step_sdl_row rfl rfl (exec_arm rfl))) ?_
  simp [run_zero]

/-! ## The indicator race (R275) -/

/-- `TXDONE` on a turn of the radio, in any state (R185). -/
theorem step_txdone_row (hplan : s.plan = .turn .txdone :: rest) : step s = .next { s with
    indicator := false, plan := rest, trace := s.trace ++ [.txdone] ++ [.ind false] } :=
  step_txdone hplan

theorem run_ledon2_txdone (hpc : s.sdlPc = .led2) (hplan : s.plan = .turn .sdl :: .turn .txdone :: rest) :
    run 2 s = .next { s with
      indicator := false, sdlPc := .park, plan := rest, trace := s.trace ++ [.ind true, .txdone, .ind false] } := by
  refine Eq.trans (run_succ (step_sdl_row hpc hplan (exec_ledon2 hpc))) ?_
  refine Eq.trans (run_succ (step_txdone_row rfl)) ?_
  simp [run_zero]

theorem run_txdone_ledon2 (hpc : s.sdlPc = .led2) (hplan : s.plan = .turn .txdone :: .turn .sdl :: rest) :
    run 2 s = .next { s with
      indicator := true, sdlPc := .park, plan := rest, trace := s.trace ++ [.txdone, .ind false, .ind true] } := by
  refine Eq.trans (run_succ (step_txdone_row hplan)) ?_
  refine Eq.trans (run_succ (step_sdl_row hpc rfl (exec_ledon2 hpc))) ?_
  simp [run_zero]

end

end Sys2Proof.Machine

section
open Sys2Proof Sys2Proof.Machine

/-- Settles O11: SPF's probe leaves SPF idle, which is what SDL's boot waits for. -/
theorem bootSequence : Obligations.BootSequence := by
  intro s a more rest hspf hsdl hind _ _ _ _ htrace hans hplan
  have hrun := (run_add (run_probe hspf hans hplan)).trans (run_bootToPark hsdl rfl rfl)
  simpa [Config.rom, hind, htrace] using hrun

/-- Settles O60: the last write of the indicator wins, and each order ends in `L_PARK`. -/
theorem indicatorRace : Obligations.IndicatorRace := by
  intro s rest hpc
  refine ⟨fun hplan => ?_, fun hplan => ?_⟩
  · have hsend := step_sdl_row hpc hplan (exec_send hpc)
    exact ⟨_, (run_succ hsend).trans (run_ledon2_txdone rfl rfl), rfl, rfl⟩
  · have hsend := step_sdl_row hpc hplan (exec_send hpc)
    exact ⟨_, (run_succ hsend).trans (run_txdone_ledon2 rfl rfl), rfl, rfl⟩

end
end

section
/-! SUPPORT. Operations that are not enabled (log 1): a row, a call and a return each leave the state where their
condition does not hold. -/

namespace Sys2Proof.Machine

/-- A row whose meaning is a guarded update has no effect where its guard fails. -/
theorem next_ite_of_not {c : Prop} [Decidable c] {s t : State} (h : ¬ c) :
    (.next (if c then t else s) : Host.Outcome State Fault Refusal) = .next s :=
  congrArg _ (if_neg h)

/-- A call waits unless SDL is at it and SPF is idle (R122, R123, R188). -/
theorem callStart_of_not_enabled {k : Kind} {call wait : SdlPc} {s : State}
    (h : ¬ (s.sdlPc = call ∧ s.spfPc = .idle)) : callStart k call wait s = s :=
  if_neg h

/-- SDL does not return from a measurement it does not wait for (R177, R179). -/
theorem waitDone_of_ne {k : Kind} {wait : SdlPc} {s : State} (h : s.sdlPc ≠ wait) : waitDone k wait s = s :=
  if_neg h

end Sys2Proof.Machine

open Sys2Proof Sys2Proof.Machine

/-- Settles O31: SPF's rows, both rows of a rendezvous (each is `callStart`), SDL's returns (`waitDone`), SDL's other
rows and the tick, each by its own guard. -/
theorem operationsNotEnabledChangeNothing : Obligations.OperationsNotEnabledChangeNothing := fun _ =>
  ⟨next_ite_of_not, next_ite_of_not, next_ite_of_not, next_ite_of_not, next_ite_of_not, next_ite_of_not,
    fun hcall => ⟨congrArg _ (callStart_of_not_enabled hcall), congrArg _ (callStart_of_not_enabled hcall)⟩,
    fun hcall => ⟨congrArg _ (callStart_of_not_enabled hcall), congrArg _ (callStart_of_not_enabled hcall)⟩,
    fun hwait => congrArg _ (waitDone_of_ne hwait), fun hwait => congrArg _ (waitDone_of_ne hwait),
    next_ite_of_not, next_ite_of_not, next_ite_of_not, next_ite_of_not, next_ite_of_not, next_ite_of_not,
    next_ite_of_not, next_ite_of_not, next_ite_of_not,
    fun hunarmed => next_ite_of_not (by simp [hunarmed])⟩

end
